-- ==== Sys2Proof/Word.lean ====
section
/-! DEFINITION. The word types of the machine and the type of sparse tables; no operation lives here. -/

namespace Sys2Proof

/-- A byte. -/
abbrev Byte := BitVec 8
/-- A 32-bit register or lane word (R6). -/
abbrev Word := BitVec 32
/-- A 64-bit value, virtual address or PC (R12, R142). -/
abbrev DWord := BitVec 64

/-- A sparse table: key and value pairs with strictly rising keys, listing no value equal to what an unlisted key reads
as. Machine/Store.lean holds its operations. -/
abbrev SMap (α : Type) := List (Nat × α)

end Sys2Proof
end

