-- ==== Sys2Proof/Syntax.lean ====
section
/-! DEFINITION. The instruction type: one constructor per row of spec/opcode_table.json, in the table's order.
A 7-bit operand is a register code (R126), `ea`, `eb`, `ed` and `ebase` are the empty-trap bits (R124), `lit` is the
second word of format RL. The rows after the instructions are the steps that have no encoding; their operands say which
party or object the step concerns. -/

namespace Sys2Proof

/-- The instructions and steps of the Zhevrid Kerpex (R128, 95_what_each_step_holds.md). -/
inductive Instr where
  -- Scalar arithmetic, logic and moves
  /-- NOP (R129) -/
  | nop
  /-- SADD (R283) -/
  | sadd (d : BitVec 7) (a : BitVec 7) (b : BitVec 7) (ea : Bool) (eb : Bool)
  /-- SADDI (R283) -/
  | saddi (d : BitVec 7) (a : BitVec 7) (imm : BitVec 9) (ea : Bool)
  /-- SSUB (R283) -/
  | ssub (d : BitVec 7) (a : BitVec 7) (b : BitVec 7) (ea : Bool) (eb : Bool)
  /-- SMUL (R283) -/
  | smul (d : BitVec 7) (a : BitVec 7) (b : BitVec 7) (ea : Bool) (eb : Bool)
  /-- SMULH_I (R283) -/
  | smulhI (d : BitVec 7) (a : BitVec 7) (b : BitVec 7) (ea : Bool) (eb : Bool)
  /-- SMULH_N (R283) -/
  | smulhN (d : BitVec 7) (a : BitVec 7) (b : BitVec 7) (ea : Bool) (eb : Bool)
  /-- SAND (R283) -/
  | sand (d : BitVec 7) (a : BitVec 7) (b : BitVec 7) (ea : Bool) (eb : Bool)
  /-- SOR (R283) -/
  | sor (d : BitVec 7) (a : BitVec 7) (b : BitVec 7) (ea : Bool) (eb : Bool)
  /-- SXOR (R283) -/
  | sxor (d : BitVec 7) (a : BitVec 7) (b : BitVec 7) (ea : Bool) (eb : Bool)
  /-- SANDN (R283) -/
  | sandn (d : BitVec 7) (a : BitVec 7) (b : BitVec 7) (ea : Bool) (eb : Bool)
  /-- SSHL (R283) -/
  | sshl (d : BitVec 7) (a : BitVec 7) (b : BitVec 7) (ea : Bool) (eb : Bool)
  /-- SSHR (R283) -/
  | sshr (d : BitVec 7) (a : BitVec 7) (b : BitVec 7) (ea : Bool) (eb : Bool)
  /-- SSRA (R283) -/
  | ssra (d : BitVec 7) (a : BitVec 7) (b : BitVec 7) (ea : Bool) (eb : Bool)
  /-- SSHI_SHL (R284) -/
  | sshiShl (d : BitVec 7) (a : BitVec 7) (n : BitVec 5) (ea : Bool)
  /-- SSHI_SHR (R284) -/
  | sshiShr (d : BitVec 7) (a : BitVec 7) (n : BitVec 5) (ea : Bool)
  /-- SSHI_SRA (R284) -/
  | sshiSra (d : BitVec 7) (a : BitVec 7) (n : BitVec 5) (ea : Bool)
  /-- SSHI_ROR (R284) -/
  | sshiRor (d : BitVec 7) (a : BitVec 7) (n : BitVec 5) (ea : Bool)
  /-- SMIN_I (R283) -/
  | sminI (d : BitVec 7) (a : BitVec 7) (b : BitVec 7) (ea : Bool) (eb : Bool)
  /-- SMAX_I (R283) -/
  | smaxI (d : BitVec 7) (a : BitVec 7) (b : BitVec 7) (ea : Bool) (eb : Bool)
  /-- SMIN_N (R283) -/
  | sminN (d : BitVec 7) (a : BitVec 7) (b : BitVec 7) (ea : Bool) (eb : Bool)
  /-- SMAX_N (R283) -/
  | smaxN (d : BitVec 7) (a : BitVec 7) (b : BitVec 7) (ea : Bool) (eb : Bool)
  /-- SCMPEQ (R286) -/
  | scmpeq (d : BitVec 7) (a : BitVec 7) (b : BitVec 7) (ea : Bool) (eb : Bool)
  /-- SCMPNE (R286) -/
  | scmpne (d : BitVec 7) (a : BitVec 7) (b : BitVec 7) (ea : Bool) (eb : Bool)
  /-- SCMPLT_I (R286) -/
  | scmpltI (d : BitVec 7) (a : BitVec 7) (b : BitVec 7) (ea : Bool) (eb : Bool)
  /-- SCMPLE_I (R286) -/
  | scmpleI (d : BitVec 7) (a : BitVec 7) (b : BitVec 7) (ea : Bool) (eb : Bool)
  /-- SCMPLT_N (R286) -/
  | scmpltN (d : BitVec 7) (a : BitVec 7) (b : BitVec 7) (ea : Bool) (eb : Bool)
  /-- SCMPLE_N (R286) -/
  | scmpleN (d : BitVec 7) (a : BitVec 7) (b : BitVec 7) (ea : Bool) (eb : Bool)
  /-- SSEL (R283) -/
  | ssel (d : BitVec 7) (a : BitVec 7) (b : BitVec 7) (ea : Bool) (eb : Bool)
  /-- SLI (R285) -/
  | sli (d : BitVec 7) (lit : BitVec 32)
  /-- SMOVI (R285) -/
  | smovi (d : BitVec 7) (imm : BitVec 9)
  /-- SMOV (R283) -/
  | smov (d : BitVec 7) (a : BitVec 7) (ea : Bool)
  /-- SPOPC (R283) -/
  | spopc (d : BitVec 7) (a : BitVec 7) (ea : Bool)
  /-- SCLZ (R283) -/
  | sclz (d : BitVec 7) (a : BitVec 7) (ea : Bool)
  -- Branches and group control
  /-- BRA (R287) -/
  | bra (off : BitVec 24)
  /-- BRS (R287) -/
  | brs (off : BitVec 24)
  /-- BRNS (R287) -/
  | brns (off : BitVec 24)
  /-- BRANY (R287) -/
  | brany (off : BitVec 24)
  /-- BRALL (R287) -/
  | brall (off : BitVec 24)
  /-- BRNONE (R287) -/
  | brnone (off : BitVec 24)
  /-- CALL (R288) -/
  | call (off : BitVec 24)
  /-- JR (R288) -/
  | jr (a : BitVec 7) (ea : Bool)
  /-- YIELD (R292) -/
  | yield
  /-- EXIT (R250) -/
  | exit
  /-- TRAP (R292) -/
  | trap (k : BitVec 12)
  /-- RETT (R381) -/
  | rett
  /-- BKPT (R292) -/
  | bkpt (k : BitVec 12)
  -- Masks, modes and system registers
  /-- MEXEC (R289) -/
  | mexec (a : BitVec 7) (ea : Bool)
  /-- MRDEXEC (R289) -/
  | mrdexec (d : BitVec 7)
  /-- MRDCM (R289) -/
  | mrdcm (d : BitVec 7)
  /-- MWRCM (R289) -/
  | mwrcm (a : BitVec 7) (ea : Bool)
  /-- MAND (R289) -/
  | mand
  /-- MELSE (R289) -/
  | melse
  /-- SETMODE (R132) -/
  | setmode (a : BitVec 7) (ea : Bool)
  /-- SETMODE_MSK (R132) -/
  | setmodeMsk (d : BitVec 7) (a : BitVec 7) (ea : Bool) (ed : Bool)
  /-- GETMODE (R132) -/
  | getmode (d : BitVec 7)
  /-- SETFMT (R134) -/
  | setfmt (a : BitVec 7) (k : BitVec 4) (ea : Bool)
  /-- GETFMT (R134) -/
  | getfmt (d : BitVec 7) (k : BitVec 4)
  /-- RDSR (R290) -/
  | rdsr (p : BitVec 7) (k : BitVec 12)
  /-- WRSR (R290) -/
  | wrsr (p : BitVec 7) (k : BitVec 12)
  /-- CANCEL (R293) -/
  | cancel (p : BitVec 7) (m : BitVec 5)
  /-- TSPAWN (R294) -/
  | tspawn (d : BitVec 7) (a : BitVec 7) (ea : Bool)
  /-- MCOUNT (R296) -/
  | mcount (d : BitVec 7)
  -- Vector
  /-- VADD (R304) -/
  | vadd (d : BitVec 7) (a : BitVec 7) (b : BitVec 7) (ea : Bool) (eb : Bool)
  /-- VSUB (R304) -/
  | vsub (d : BitVec 7) (a : BitVec 7) (b : BitVec 7) (ea : Bool) (eb : Bool)
  /-- VMUL (R304) -/
  | vmul (d : BitVec 7) (a : BitVec 7) (b : BitVec 7) (ea : Bool) (eb : Bool)
  /-- VMULH (R304) -/
  | vmulh (d : BitVec 7) (a : BitVec 7) (b : BitVec 7) (ea : Bool) (eb : Bool)
  /-- VMAD (R304) -/
  | vmad (d : BitVec 7) (a : BitVec 7) (b : BitVec 7) (ea : Bool) (eb : Bool) (ed : Bool)
  /-- VMIN (R304) -/
  | vmin (d : BitVec 7) (a : BitVec 7) (b : BitVec 7) (ea : Bool) (eb : Bool)
  /-- VMAX (R304) -/
  | vmax (d : BitVec 7) (a : BitVec 7) (b : BitVec 7) (ea : Bool) (eb : Bool)
  /-- VABSD (R304) -/
  | vabsd (d : BitVec 7) (a : BitVec 7) (b : BitVec 7) (ea : Bool) (eb : Bool)
  /-- VAND (R305) -/
  | vand (d : BitVec 7) (a : BitVec 7) (b : BitVec 7) (ea : Bool) (eb : Bool)
  /-- VOR (R305) -/
  | vor (d : BitVec 7) (a : BitVec 7) (b : BitVec 7) (ea : Bool) (eb : Bool)
  /-- VXOR (R305) -/
  | vxor (d : BitVec 7) (a : BitVec 7) (b : BitVec 7) (ea : Bool) (eb : Bool)
  /-- VANDN (R305) -/
  | vandn (d : BitVec 7) (a : BitVec 7) (b : BitVec 7) (ea : Bool) (eb : Bool)
  /-- VSHL (R304) -/
  | vshl (d : BitVec 7) (a : BitVec 7) (b : BitVec 7) (ea : Bool) (eb : Bool)
  /-- VSHR (R304) -/
  | vshr (d : BitVec 7) (a : BitVec 7) (b : BitVec 7) (ea : Bool) (eb : Bool)
  /-- VSRA (R304) -/
  | vsra (d : BitVec 7) (a : BitVec 7) (b : BitVec 7) (ea : Bool) (eb : Bool)
  /-- VSEL (R305) -/
  | vsel (d : BitVec 7) (a : BitVec 7) (b : BitVec 7) (ea : Bool) (eb : Bool)
  /-- VMOV (R305) -/
  | vmov (d : BitVec 7) (a : BitVec 7) (ea : Bool)
  /-- VLI (R306) -/
  | vli (d : BitVec 7) (lit : BitVec 32)
  /-- VPOPC (R304) -/
  | vpopc (d : BitVec 7) (a : BitVec 7) (ea : Bool)
  /-- VCLZ (R304) -/
  | vclz (d : BitVec 7) (a : BitVec 7) (ea : Bool)
  /-- VBFE (R307) -/
  | vbfe (d : BitVec 7) (a : BitVec 7) (b : BitVec 7) (ea : Bool) (eb : Bool)
  /-- VBFI (R307) -/
  | vbfi (d : BitVec 7) (a : BitVec 7) (b : BitVec 7) (ea : Bool) (eb : Bool) (ed : Bool)
  /-- VCMPEQ (R309) -/
  | vcmpeq (a : BitVec 7) (b : BitVec 7) (ea : Bool) (eb : Bool)
  /-- VCMPNE (R309) -/
  | vcmpne (a : BitVec 7) (b : BitVec 7) (ea : Bool) (eb : Bool)
  /-- VCMPLT (R309) -/
  | vcmplt (a : BitVec 7) (b : BitVec 7) (ea : Bool) (eb : Bool)
  /-- VCMPLE (R309) -/
  | vcmple (a : BitVec 7) (b : BitVec 7) (ea : Bool) (eb : Bool)
  /-- VLANEID (R308) -/
  | vlaneid (d : BitVec 7)
  /-- VDOT4 (R315) -/
  | vdot4 (d : BitVec 7) (a : BitVec 7) (b : BitVec 7) (ea : Bool) (eb : Bool) (ed : Bool)
  /-- FADD (R311) -/
  | fadd (d : BitVec 7) (a : BitVec 7) (b : BitVec 7) (ea : Bool) (eb : Bool)
  /-- FSUB (R311) -/
  | fsub (d : BitVec 7) (a : BitVec 7) (b : BitVec 7) (ea : Bool) (eb : Bool)
  /-- FMUL (R311) -/
  | fmul (d : BitVec 7) (a : BitVec 7) (b : BitVec 7) (ea : Bool) (eb : Bool)
  /-- FFMA (R311) -/
  | ffma (d : BitVec 7) (a : BitVec 7) (b : BitVec 7) (ea : Bool) (eb : Bool) (ed : Bool)
  /-- FMIN (R311) -/
  | fmin (d : BitVec 7) (a : BitVec 7) (b : BitVec 7) (ea : Bool) (eb : Bool)
  /-- FMAX (R311) -/
  | fmax (d : BitVec 7) (a : BitVec 7) (b : BitVec 7) (ea : Bool) (eb : Bool)
  /-- FABS (R312) -/
  | fabs (d : BitVec 7) (a : BitVec 7) (ea : Bool)
  /-- FNEG (R312) -/
  | fneg (d : BitVec 7) (a : BitVec 7) (ea : Bool)
  /-- FCMPEQ (R309) -/
  | fcmpeq (a : BitVec 7) (b : BitVec 7) (ea : Bool) (eb : Bool)
  /-- FCMPLT (R309) -/
  | fcmplt (a : BitVec 7) (b : BitVec 7) (ea : Bool) (eb : Bool)
  /-- FCMPLE (R309) -/
  | fcmple (a : BitVec 7) (b : BitVec 7) (ea : Bool) (eb : Bool)
  /-- FCMPUN (R309) -/
  | fcmpun (a : BitVec 7) (b : BitVec 7) (ea : Bool) (eb : Bool)
  /-- FRND (R313) -/
  | frnd (d : BitVec 7) (a : BitVec 7) (m : BitVec 3) (ea : Bool)
  /-- FCLASS (R310) -/
  | fclass (a : BitVec 7) (b : BitVec 7) (ea : Bool) (eb : Bool)
  /-- FSFU (R314) -/
  | fsfu (d : BitVec 7) (a : BitVec 7) (n : BitVec 3) (ea : Bool)
  /-- CVT (R316) -/
  | cvt (d : BitVec 7) (a : BitVec 7) (k : BitVec 2) (t : BitVec 5) (ea : Bool) (ed : Bool)
  /-- CVTN (R317) -/
  | cvtn (d : BitVec 7) (a : BitVec 7) (k : BitVec 2) (j : BitVec 4) (ea : Bool) (ed : Bool)
  /-- CVTW (R318) -/
  | cvtw (d : BitVec 7) (a : BitVec 7) (k : BitVec 2) (j : BitVec 4) (ea : Bool)
  /-- VTAG (R320) -/
  | vtag (d : BitVec 7) (t : BitVec 5)
  /-- VGETTAG (R321) -/
  | vgettag (d : BitVec 7) (a : BitVec 7) (ea : Bool)
  /-- VCMPR (R322) -/
  | vcmpr (d : BitVec 7) (a : BitVec 7) (ea : Bool)
  /-- VSHFL (R323) -/
  | vshfl (d : BitVec 7) (a : BitVec 7) (b : BitVec 7) (ea : Bool) (eb : Bool)
  /-- VSHFLI (R323) -/
  | vshfli (d : BitVec 7) (a : BitVec 7) (m : BitVec 2) (n : BitVec 5) (ea : Bool)
  /-- VRED (R325) -/
  | vred (d : BitVec 7) (a : BitVec 7) (p : BitVec 3) (ea : Bool)
  /-- VSCAN (R325) -/
  | vscan (d : BitVec 7) (a : BitVec 7) (p : BitVec 3) (ea : Bool)
  /-- VBCAST (R324) -/
  | vbcast (d : BitVec 7) (a : BitVec 7) (b : BitVec 7) (ea : Bool) (eb : Bool)
  /-- VMOVS (R324) -/
  | vmovs (d : BitVec 7) (a : BitVec 7) (b : BitVec 7) (ea : Bool) (eb : Bool)
  /-- VMOVV (R324) -/
  | vmovv (d : BitVec 7) (a : BitVec 7) (b : BitVec 7) (ea : Bool) (eb : Bool)
  -- Memory access
  /-- LD_B (R154) -/
  | ldB (d : BitVec 7) (base : BitVec 7) (off : BitVec 6) (ebase : Bool)
  /-- LD_H (R154) -/
  | ldH (d : BitVec 7) (base : BitVec 7) (off : BitVec 6) (ebase : Bool)
  /-- LD_W (R154) -/
  | ldW (d : BitVec 7) (base : BitVec 7) (off : BitVec 6) (ebase : Bool)
  /-- LD_D (R154) -/
  | ldD (d : BitVec 7) (base : BitVec 7) (off : BitVec 6) (ebase : Bool)
  /-- LD_Q (R154) -/
  | ldQ (d : BitVec 7) (base : BitVec 7) (off : BitVec 6) (ebase : Bool)
  /-- ST_B (R154) -/
  | stB (d : BitVec 7) (base : BitVec 7) (off : BitVec 6) (ebase : Bool)
  /-- ST_H (R154) -/
  | stH (d : BitVec 7) (base : BitVec 7) (off : BitVec 6) (ebase : Bool)
  /-- ST_W (R154) -/
  | stW (d : BitVec 7) (base : BitVec 7) (off : BitVec 6) (ebase : Bool)
  /-- ST_D (R154) -/
  | stD (d : BitVec 7) (base : BitVec 7) (off : BitVec 6) (ebase : Bool)
  /-- ST_Q (R154) -/
  | stQ (d : BitVec 7) (base : BitVec 7) (off : BitVec 6) (ebase : Bool)
  /-- LD_ACQ_W (R156) -/
  | ldAcqW (d : BitVec 7) (base : BitVec 7) (off : BitVec 6) (scope : BitVec 3) (ebase : Bool)
  /-- LD_ACQ_D (R156) -/
  | ldAcqD (d : BitVec 7) (base : BitVec 7) (off : BitVec 6) (scope : BitVec 3) (ebase : Bool)
  /-- ST_REL_W (R156) -/
  | stRelW (d : BitVec 7) (base : BitVec 7) (off : BitVec 6) (scope : BitVec 3) (ebase : Bool)
  /-- ST_REL_D (R156) -/
  | stRelD (d : BitVec 7) (base : BitVec 7) (off : BitVec 6) (scope : BitVec 3) (ebase : Bool)
  /-- SLD (R157) -/
  | sld (d : BitVec 7) (base : BitVec 7) (off : BitVec 6) (ebase : Bool)
  /-- SLD_D (R157) -/
  | sldD (d : BitVec 7) (base : BitVec 7) (off : BitVec 6) (ebase : Bool)
  /-- SST (R157) -/
  | sst (d : BitVec 7) (base : BitVec 7) (off : BitVec 6) (ebase : Bool)
  /-- SST_D (R157) -/
  | sstD (d : BitVec 7) (base : BitVec 7) (off : BitVec 6) (ebase : Bool)
  /-- LDS_W (R158) -/
  | ldsW (d : BitVec 7) (base : BitVec 7) (off : BitVec 6) (ebase : Bool)
  /-- LDS_D (R158) -/
  | ldsD (d : BitVec 7) (base : BitVec 7) (off : BitVec 6) (ebase : Bool)
  /-- LDS_Q (R158) -/
  | ldsQ (d : BitVec 7) (base : BitVec 7) (off : BitVec 6) (ebase : Bool)
  /-- STS_W (R158) -/
  | stsW (d : BitVec 7) (base : BitVec 7) (off : BitVec 6) (ebase : Bool)
  /-- STS_D (R158) -/
  | stsD (d : BitVec 7) (base : BitVec 7) (off : BitVec 6) (ebase : Bool)
  /-- STS_Q (R158) -/
  | stsQ (d : BitVec 7) (base : BitVec 7) (off : BitVec 6) (ebase : Bool)
  /-- ATOM_ADD (R159) -/
  | atomAdd (d : BitVec 7) (addr : BitVec 7) (b : BitVec 7) (scope : BitVec 3)
  /-- ATOM_MIN (R159) -/
  | atomMin (d : BitVec 7) (addr : BitVec 7) (b : BitVec 7) (scope : BitVec 3)
  /-- ATOM_MAX (R159) -/
  | atomMax (d : BitVec 7) (addr : BitVec 7) (b : BitVec 7) (scope : BitVec 3)
  /-- ATOM_AND (R159) -/
  | atomAnd (d : BitVec 7) (addr : BitVec 7) (b : BitVec 7) (scope : BitVec 3)
  /-- ATOM_OR (R159) -/
  | atomOr (d : BitVec 7) (addr : BitVec 7) (b : BitVec 7) (scope : BitVec 3)
  /-- ATOM_XOR (R159) -/
  | atomXor (d : BitVec 7) (addr : BitVec 7) (b : BitVec 7) (scope : BitVec 3)
  /-- ATOM_XCHG (R159) -/
  | atomXchg (d : BitVec 7) (addr : BitVec 7) (b : BitVec 7) (scope : BitVec 3)
  /-- ATOM_CAS (R159) -/
  | atomCas (d : BitVec 7) (addr : BitVec 7) (b : BitVec 7) (scope : BitVec 3)
  /-- ATOMS_ADD (R161) -/
  | atomsAdd (d : BitVec 7) (addr : BitVec 7) (b : BitVec 7)
  /-- ATOMS_MIN (R161) -/
  | atomsMin (d : BitVec 7) (addr : BitVec 7) (b : BitVec 7)
  /-- ATOMS_MAX (R161) -/
  | atomsMax (d : BitVec 7) (addr : BitVec 7) (b : BitVec 7)
  /-- ATOMS_OR (R161) -/
  | atomsOr (d : BitVec 7) (addr : BitVec 7) (b : BitVec 7)
  /-- ATOMS_XCHG (R161) -/
  | atomsXchg (d : BitVec 7) (addr : BitVec 7) (b : BitVec 7)
  /-- ATOMS_CAS (R161) -/
  | atomsCas (d : BitVec 7) (addr : BitVec 7) (b : BitVec 7)
  /-- RED (R162) -/
  | red (d : BitVec 7) (addr : BitVec 7) (b : BitVec 7) (scope : BitVec 3)
  /-- FENCE (R163) -/
  | fence (kind : BitVec 2) (s : BitVec 3)
  /-- PREFETCH (R164) -/
  | prefetch (d : BitVec 7) (base : BitVec 7) (off : BitVec 6) (scope : BitVec 3) (ebase : Bool)
  /-- CFLUSH (R164) -/
  | cflush (d : BitVec 7) (base : BitVec 7) (off : BitVec 6) (scope : BitVec 3) (ebase : Bool)
  /-- CINV (R164) -/
  | cinv (d : BitVec 7) (base : BitVec 7) (off : BitVec 6) (scope : BitVec 3) (ebase : Bool)
  /-- ICINV (R166) -/
  | icinv (addr : BitVec 7) (b : BitVec 7) (scope : BitVec 3)
  /-- MONW (R167) -/
  | monw (d : BitVec 7) (addr : BitVec 7) (b : BitVec 7) (scope : BitVec 3)
  /-- PGMAP (R170) -/
  | pgmap (d : BitVec 7) (addr : BitVec 7) (b : BitVec 7)
  /-- PGSHARE (R171) -/
  | pgshare (d : BitVec 7) (addr : BitVec 7) (b : BitVec 7)
  /-- PGREL (R172) -/
  | pgrel (d : BitVec 7) (addr : BitVec 7) (b : BitVec 7)
  /-- TLBINV (R173) -/
  | tlbinv (addr : BitVec 7) (b : BitVec 7)
  -- Barriers, engines and rings
  /-- BINIT (R177) -/
  | binit (d : BitVec 7) (a : BitVec 7) (ea : Bool) (ed : Bool)
  /-- BARR (R177) -/
  | barr (d : BitVec 7) (a : BitVec 7) (ea : Bool)
  /-- BARR_DROP (R177) -/
  | barrDrop (d : BitVec 7) (a : BitVec 7) (ea : Bool)
  /-- BEXP (R177) -/
  | bexp (d : BitVec 7) (a : BitVec 7) (ea : Bool) (ed : Bool)
  /-- BEXP_ADD (R177) -/
  | bexpAdd (d : BitVec 7) (a : BitVec 7) (ea : Bool) (ed : Bool)
  /-- BWAIT (R178) -/
  | bwait (p : BitVec 7) (kreg : BitVec 7)
  /-- BTEST (R177) -/
  | btest (d : BitVec 7) (a : BitVec 7) (ea : Bool)
  /-- CPYT (R185) -/
  | cpyt (d : BitVec 7) (a : BitVec 7) (ea : Bool) (ed : Bool) (lit : BitVec 32)
  /-- KICK (R184) -/
  | kick (p : BitVec 7) (n : BitVec 5)
  /-- RSUB_LD (R193) -/
  | rsubLd (d : BitVec 7) (a : BitVec 7) (ea : Bool)
  /-- RSUB_ST (R193) -/
  | rsubSt (d : BitVec 7) (a : BitVec 7) (ea : Bool)
  /-- RPUT (R196) -/
  | rput (a : BitVec 7) (ea : Bool)
  /-- RREL (R196) -/
  | rrel (a : BitVec 7) (ea : Bool)
  /-- RCANCEL (R196) -/
  | rcancel (a : BitVec 7) (ea : Bool)
  /-- GBAR (R179) -/
  | gbar
  /-- WAITC (R191) -/
  | waitc (c : BitVec 3) (n : BitVec 6)
  /-- GTH (R186) -/
  | gth (a : BitVec 7) (ea : Bool)
  /-- CPYRED (R187) -/
  | cpyred (a : BitVec 7) (ea : Bool)
  -- Tiles and matrices
  /-- TDEF (R328) -/
  | tdef (a : BitVec 7) (n : BitVec 5) (ea : Bool)
  /-- TDEF_MEAS (R328) -/
  | tdefMeas (n : BitVec 5)
  /-- TINFO (R331) -/
  | tinfo (d : BitVec 7) (w : BitVec 2) (n : BitVec 5)
  /-- TTRANS (R330) -/
  | ttrans (hA : BitVec 5) (hB : BitVec 5)
  /-- TSCL (R335) -/
  | tscl (d : BitVec 7) (a : BitVec 7) (s : BitVec 5) (ea : Bool)
  /-- TCVT (R334) -/
  | tcvt (hA : BitVec 5) (hB : BitVec 5)
  /-- TLD (R332) -/
  | tld (d : BitVec 7) (a : BitVec 7) (s : Bool) (n : BitVec 5) (ea : Bool) (ed : Bool)
  /-- TST (R332) -/
  | tst (d : BitVec 7) (a : BitVec 7) (s : Bool) (n : BitVec 5) (ea : Bool) (ed : Bool)
  /-- ACQ (R337) -/
  | acq (chain : Bool) (bank : BitVec 4)
  /-- REL (R338) -/
  | rel (chain : Bool) (bank : BitVec 4)
  /-- BCLR (R339) -/
  | bclr (chain : Bool) (bank : BitVec 4) (p : Bool)
  /-- LDW (R341) -/
  | ldw (hB : BitVec 5)
  /-- SWPW (R342) -/
  | swpw
  /-- MMA (R343) -/
  | mma (bank : BitVec 4) (hA : BitVec 5) (r : BitVec 2) (c : BitVec 2) (g : Bool) (s : BitVec 3)
  /-- MMAC (R345) -/
  | mmac (bank : BitVec 4) (hA : BitVec 5) (r : BitVec 2) (c : BitVec 2) (g : Bool) (s : BitVec 3)
  /-- ARD (R346) -/
  | ard (chain : Bool) (bank : BitVec 4) (hA : BitVec 5) (r : BitVec 2) (c : BitVec 2)
  /-- AWR (R339) -/
  | awr (bank : BitVec 4) (hA : BitVec 5) (r : BitVec 2) (c : BitVec 2) (p : Bool)
  -- Bounds and logs
  /-- BNDRD (R238) -/
  | bndrd (d : BitVec 7) (n : BitVec 4)
  /-- BNDRD_STAT (R238) -/
  | bndrdStat (d : BitVec 7) (n : BitVec 4)
  /-- BNDWR (R238) -/
  | bndwr (a : BitVec 7) (n : BitVec 4) (ea : Bool)
  /-- BNDWR_INV (R238) -/
  | bndwrInv (n : BitVec 4)
  /-- HBND (R238) -/
  | hbnd (d : BitVec 7) (n : BitVec 5)
  /-- HBND_MAX (R238) -/
  | hbndMax (d : BitVec 7) (n : BitVec 5)
  /-- HBND_RAISE (R238) -/
  | hbndRaise (a : BitVec 7) (n : BitVec 5) (ea : Bool)
  /-- HBND_SET (R238) -/
  | hbndSet (a : BitVec 7) (n : BitVec 5) (ea : Bool)
  /-- MLOG_STAT (R238) -/
  | mlogStat (d : BitVec 7) (n : BitVec 4)
  /-- MLOG_REISSUE (R238) -/
  | mlogReissue (d : BitVec 7) (n : BitVec 4)
  /-- MLOG_SEAL (R238) -/
  | mlogSeal (n : BitVec 4)
  -- Graft table
  /-- RWLOAD (R365) -/
  | rwload (d : BitVec 7) (a : BitVec 7) (n : BitVec 6) (ea : Bool) (ed : Bool)
  /-- RWLOAD_DEF (R365) -/
  | rwloadDef (n : BitVec 6)
  /-- RWFLUSH (R366) -/
  | rwflush
  /-- RWSTAT (R367) -/
  | rwstat (d : BitVec 7) (func : BitVec 7) (fl : Bool)
  -- Trace and profiling
  /-- TRCMARK (R414) -/
  | trcmark (p : BitVec 7) (k : BitVec 12)
  /-- TRCCTL_ON (R413) -/
  | trcctlOn
  /-- TRCCTL_OFF (R413) -/
  | trcctlOff
  /-- TRCCTL_SYNC (R413) -/
  | trcctlSync
  /-- TRCCTL_FLUSH (R413) -/
  | trcctlFlush
  /-- TRCCTL_CFG (R413) -/
  | trcctlCfg (a : BitVec 7) (ea : Bool)
  /-- SMPLCTL (R407) -/
  | smplctl (a : BitVec 7) (ea : Bool)
  /-- SMPLCTL_OFF (R407) -/
  | smplctlOff
  /-- RDPMC (R425) -/
  | rdpmc (d : BitVec 7) (func : BitVec 7)
  /-- RDPMC_HI (R425) -/
  | rdpmcHi (d : BitVec 7) (func : BitVec 7)
  -- Steps with no encoding (95_what_each_step_holds.md)
  /-- SQKICK (R429) -/
  | sqkick (tail : BitVec 32)
  /-- JOB (R431) -/
  | job
  /-- PREEMPT (R392) -/
  | preempt
  /-- RESTORE (R396) -/
  | restore
  /-- GRANT (R497) -/
  | grant
  /-- RECLAIM (R497) -/
  | reclaim
  /-- CREATE (R500) -/
  | create
  /-- TEARDOWN (R500) -/
  | teardown
  /-- ATTEST (R443) -/
  | attest
  /-- ATTACH (R418) -/
  | attach
  /-- HALT (R420) -/
  | halt
  /-- RESUME (R420) -/
  | resume
  /-- FREEZE (R421) -/
  | freeze
  /-- THAW (R418) -/
  | thaw
  /-- STEP (R418) -/
  | step
  /-- SETBP (R418) -/
  | setbp
  /-- DEBUG_ICINV (R418) -/
  | debugIcinv
  /-- DUMP (R423) -/
  | dump
  /-- WRREG (R418) -/
  | wrreg
  /-- TO_HOST (R97) -/
  | toHost (slot : BitVec 6)
  /-- TO_DEVICE (R97) -/
  | toDevice (slot : BitVec 6)
  /-- REGISTER_WRITE (R428) -/
  | registerWrite (bar2 : Bool) (off : BitVec 24) (val : BitVec 64)
  /-- L2QUOTA_WRITE (R73) -/
  | l2quotaWrite (die : BitVec 2) (val : BitVec 64)
  /-- POWERCAP_WRITE (R447) -/
  | powercapWrite (val : BitVec 64)
  /-- BUDGET_WRITE (R444) -/
  | budgetWrite (island : BitVec 5) (val : BitVec 32)
  /-- HOST_WINDOW_ACCESS (R91) -/
  | hostWindowAccess (off : Nat) (wide : Bool) (wr : Option (BitVec 64))
  /-- I2C_READ (R448) -/
  | i2cRead (off : BitVec 24)
  /-- I2C_WRITE (R448) -/
  | i2cWrite (off : BitVec 24) (val : BitVec 32)
  /-- THROTTLE_ASSERT (R448) -/
  | throttleAssert
  /-- THROTTLE_RELEASE (R448) -/
  | throttleRelease
  /-- COLD_RESET (R440) -/
  | coldReset (jframe : BitVec 36) (failStep : BitVec 8) (badGroves : List Nat)
  /-- PACKAGE_CURRENT_LIMIT (R444) -/
  | packageCurrentLimit
  /-- THERMAL_LIMIT (R447) -/
  | thermalLimit (island : BitVec 5) (temp : BitVec 32)
  /-- LANE_FAILURE (R437) -/
  | laneFailure (port : Nat)
  /-- LINK_LOSS (R437) -/
  | linkLoss (port : Nat)
  /-- FABRIC_TRANSACTION (R436) -/
  | fabricTransaction (id : Nat) (wr : Bool) (op off : Nat) (tag : BitVec 16) (size : Nat) (data : List (BitVec 8))
  /-- FABRIC_TIMEOUT (R436) -/
  | fabricTimeout (id : Nat)
  /-- HBM_SCRUB (R439) -/
  | hbmScrub (frame : BitVec 36) (fixes : Nat)
  /-- CHANNEL_SPARING (R439) -/
  | channelSparing (stack : Nat)
  /-- L2_WAY_RETIRE (R74) -/
  | l2WayRetire (die slice setIdx way : Nat)
  /-- FRAME_RETIRE (R446) -/
  | frameRetire (frame : BitVec 36) (bad : Bool)
  /-- GROVE_RETIRE (R445) -/
  | groveRetire (grove : Nat)
  /-- LENDING_ENTER (R69) -/
  | lendingEnter (core : Nat)
  /-- CARVE_UPDATE (R68) -/
  | carveUpdate (core : Nat)
  /-- HEADROOM_READ (R279) -/
  | headroomRead (die : Nat) (used : List Nat)
  /-- PLACEMENT_DECISION (R259) -/
  | placementDecision (die : Nat)
  /-- LOCAL_STORE_DRAIN (R64) -/
  | localStoreDrain (team : Nat)
  /-- WINDOW_ZERO_FILL (R65) -/
  | windowZeroFill (team : Nat)
  /-- ECLASS_REFINE (R278) -/
  | eclassRefine (ctx unit mean : Nat)
  /-- TEAM_COMPLETE (R249) -/
  | teamComplete (team : Nat)
  /-- POOL_START (R271) -/
  | poolStart (ctx unit : Nat)
  /-- DEADLOCK_WALK (R398) -/
  | deadlockWalk (ctx : Nat)
  /-- WATCHDOG (R248) -/
  | watchdog (g : Nat)
  /-- MONITOR_TIMEOUT (R168) -/
  | monitorTimeout (g : Nat)
  /-- MONITOR_END (R168) -/
  | monitorEnd (g : Nat)
  /-- SAMPLE_TICK (R404) -/
  | sampleTick (core slot : Nat)
  /-- SAMPLE_TAG (R406) -/
  | sampleTag (core slot : Nat)
  /-- TAGGED_RECORD (R406) -/
  | taggedRecord (core slot : Nat)
  /-- TRACE_BLOCK_WRITE (R401) -/
  | traceBlockWrite (core : Nat)
  /-- SAVE_REQUEST (R392) -/
  | saveRequest (ctx : Nat)
  /-- PREEMPT_DEADLINE (R392) -/
  | preemptDeadline (ctx : Nat)
  /-- CONTEXT_SAVE (R395) -/
  | contextSave (ctx : Nat)
  /-- TABLE_WALK (R24) -/
  | tableWalk (req : Nat)
  /-- SHOOTDOWN_ACCEPT (R43) -/
  | shootdownAccept (ctx : Nat)
  /-- SHOOTDOWN_INVALIDATION (R43) -/
  | shootdownInvalidation (ctx target : Nat)
  /-- SHOOTDOWN_ACK (R43) -/
  | shootdownAck (ctx target : Nat)
  /-- GETS (R87) -/
  | gets (grove : Nat) (line : Nat) (first n : Nat)
  /-- GETW (R87) -/
  | getw (grove : Nat) (line : Nat) (first n : Nat)
  /-- COHERENCE_GRANT (R84) -/
  | coherenceGrant (g : Nat)
  /-- RECALL (R87) -/
  | recallWords (grove line : Nat) (mask : BitVec 32)
  /-- INV (R87) -/
  | inv (grove line : Nat) (mask : BitVec 32)
  /-- BINV (R87) -/
  | binv (grove line : Nat)
  /-- WB (R87) -/
  | wb (grove line : Nat) (mask : BitVec 32)
  /-- DROP (R87) -/
  | drop (grove line : Nat) (mask : BitVec 32)
  /-- ATOMIC_REQUEST (R160) -/
  | atomicRequest (grove : Nat)
  /-- ATOMIC_REPLY (R160) -/
  | atomicReply (g : Nat)
  /-- LOAD_RETURN (R139) -/
  | loadReturn (g : Nat)
  /-- FETCH_FILL (R143) -/
  | fetchFill (req : Nat)
  /-- ENGINE_REQUEST_START (R182) -/
  | engineRequestStart (core cls : Nat)
  /-- ENGINE_CHUNK_DONE (R182) -/
  | engineChunkDone (core n : Nat)
  /-- GATHER_BATCH (R186) -/
  | gatherBatch (core n : Nat)
  /-- COPY_REDUCE_UPDATE (R187) -/
  | copyReduceUpdate (core n : Nat)
  /-- LOADER_FILL (R195) -/
  | loaderFill (sub : Nat)
  /-- STORER_DRAIN (R195) -/
  | storerDrain (sub : Nat)
  /-- ARRAY_STEP_START (R347) -/
  | arrayStepStart (array : Nat)
  /-- ARRAY_STEP_END (R229) -/
  | arrayStepEnd (array : Nat)
  /-- REISSUE (R233) -/
  | reissue (array bank : Nat)
  /-- TILE_TRANSFER_DONE (R349) -/
  | tileTransferDone (op : Nat)
  /-- TRAP_ENTRY (R380) -/
  | trapEntry (g : Nat)
  /-- FAULT_HALT (R383) -/
  | faultHalt (ctx : Nat)
  /-- CONTAINMENT (R386) -/
  | containment (ctx : Nat)
  /-- FORCED_RESET (R397) -/
  | forcedReset (ctx : Nat)
  /-- FABRIC_RESPONSE (R13) -/
  | fabricResponse (id : Nat) (code : BitVec 8) (det : BitVec 32) (data : List (BitVec 8))
  deriving DecidableEq, Repr

end Sys2Proof
end

