-- ==== Sys2Proof/WellFormed.lean ====
section
/-! DEFINITION. Which instructions are well formed: the decode-time refusals of R125 that depend on operand values
(register space, pairs, scopes, value fields). A refusal that needs MODE or register contents is made at issue and is
not here. -/

namespace Sys2Proof

/-- Why a word is refused on decode: the cases of the table of R125. -/
inductive Defect where
  /-- 0x0000_0000 and 0xFFFF_FFFF -/
  | fixedWord
  /-- an opcode that R128 does not assign -/
  | reservedOpcode
  /-- a func value, or func-selected combination, that is not listed -/
  | unassignedFunc
  /-- a field or bit that the instruction does not use is nonzero -/
  | unusedField
  /-- a code outside the register space, or an odd code where a pair is required (R126, R127) -/
  | registerCode
  /-- a scope field holding 0b101, 0b110 or 0b111 -/
  | scopeField
  /-- a value that the instruction's description lists as illegal -/
  | valueField
  deriving DecidableEq, Repr

/-- A code of S space: s0 to s63 (R126). -/
def isS (c : BitVec 7) : Bool := c.toNat < 64
/-- A code of a vector register v0 to v95 (R126). -/
def isV (c : BitVec 7) : Bool := c.toNat < 96
/-- A code of V space that names a broadcast scalar (R126). -/
def isB (c : BitVec 7) : Bool := 96 ≤ c.toNat
/-- The code of a pair is even (R127). -/
def isEven (c : BitVec 7) : Bool := c.toNat % 2 == 0
/-- The code of a quad is a multiple of 4 (R127). -/
def isQuad (c : BitVec 7) : Bool := c.toNat % 4 == 0
/-- A legal scope code (R5). -/
def isScope (c : BitVec 3) : Bool := c.toNat ≤ 4
/-- A counter code that the table of R425 lists. -/
def isCounter (c : BitVec 7) : Bool :=
  c.toNat ≤ 1 || (0x11 ≤ c.toNat && c.toNat ≤ 0x1D) || (0x20 ≤ c.toNat && c.toNat ≤ 0x2F)

/-- The first failing check's defect, none when every check holds. -/
def firstDefect : List (Bool × Defect) → Option Defect
  | [] => none
  | (ok, d) :: rest => if ok then firstDefect rest else some d

/-- The decode-time refusal of an instruction's operands (R125); none for a well-formed instruction. -/
def Instr.defect : Instr → Option Defect
  | .nop => none
  | .sadd d a b _ _ => firstDefect [(isS d, .registerCode), (isS a, .registerCode), (isS b, .registerCode)]
  | .saddi d a _ _ => firstDefect [(isS d, .registerCode), (isS a, .registerCode)]
  | .ssub d a b _ _ => firstDefect [(isS d, .registerCode), (isS a, .registerCode), (isS b, .registerCode)]
  | .smul d a b _ _ => firstDefect [(isS d, .registerCode), (isS a, .registerCode), (isS b, .registerCode)]
  | .smulhI d a b _ _ => firstDefect [(isS d, .registerCode), (isS a, .registerCode), (isS b, .registerCode)]
  | .smulhN d a b _ _ => firstDefect [(isS d, .registerCode), (isS a, .registerCode), (isS b, .registerCode)]
  | .sand d a b _ _ => firstDefect [(isS d, .registerCode), (isS a, .registerCode), (isS b, .registerCode)]
  | .sor d a b _ _ => firstDefect [(isS d, .registerCode), (isS a, .registerCode), (isS b, .registerCode)]
  | .sxor d a b _ _ => firstDefect [(isS d, .registerCode), (isS a, .registerCode), (isS b, .registerCode)]
  | .sandn d a b _ _ => firstDefect [(isS d, .registerCode), (isS a, .registerCode), (isS b, .registerCode)]
  | .sshl d a b _ _ => firstDefect [(isS d, .registerCode), (isS a, .registerCode), (isS b, .registerCode)]
  | .sshr d a b _ _ => firstDefect [(isS d, .registerCode), (isS a, .registerCode), (isS b, .registerCode)]
  | .ssra d a b _ _ => firstDefect [(isS d, .registerCode), (isS a, .registerCode), (isS b, .registerCode)]
  | .sshiShl d a _ _ => firstDefect [(isS d, .registerCode), (isS a, .registerCode)]
  | .sshiShr d a _ _ => firstDefect [(isS d, .registerCode), (isS a, .registerCode)]
  | .sshiSra d a _ _ => firstDefect [(isS d, .registerCode), (isS a, .registerCode)]
  | .sshiRor d a _ _ => firstDefect [(isS d, .registerCode), (isS a, .registerCode)]
  | .sminI d a b _ _ => firstDefect [(isS d, .registerCode), (isS a, .registerCode), (isS b, .registerCode)]
  | .smaxI d a b _ _ => firstDefect [(isS d, .registerCode), (isS a, .registerCode), (isS b, .registerCode)]
  | .sminN d a b _ _ => firstDefect [(isS d, .registerCode), (isS a, .registerCode), (isS b, .registerCode)]
  | .smaxN d a b _ _ => firstDefect [(isS d, .registerCode), (isS a, .registerCode), (isS b, .registerCode)]
  | .scmpeq d a b _ _ => firstDefect [(isS d, .registerCode), (isS a, .registerCode), (isS b, .registerCode)]
  | .scmpne d a b _ _ => firstDefect [(isS d, .registerCode), (isS a, .registerCode), (isS b, .registerCode)]
  | .scmpltI d a b _ _ => firstDefect [(isS d, .registerCode), (isS a, .registerCode), (isS b, .registerCode)]
  | .scmpleI d a b _ _ => firstDefect [(isS d, .registerCode), (isS a, .registerCode), (isS b, .registerCode)]
  | .scmpltN d a b _ _ => firstDefect [(isS d, .registerCode), (isS a, .registerCode), (isS b, .registerCode)]
  | .scmpleN d a b _ _ => firstDefect [(isS d, .registerCode), (isS a, .registerCode), (isS b, .registerCode)]
  | .ssel d a b _ _ => firstDefect [(isS d, .registerCode), (isS a, .registerCode), (isS b, .registerCode)]
  | .sli d _ => firstDefect [(isS d, .registerCode)]
  | .smovi d _ => firstDefect [(isS d, .registerCode)]
  | .smov d a _ => firstDefect [(isS d, .registerCode), (isS a, .registerCode)]
  | .spopc d a _ => firstDefect [(isS d, .registerCode), (isS a, .registerCode)]
  | .sclz d a _ => firstDefect [(isS d, .registerCode), (isS a, .registerCode)]
  | .bra _ => none
  | .brs _ => none
  | .brns _ => none
  | .brany _ => none
  | .brall _ => none
  | .brnone _ => none
  | .call _ => none
  | .jr a _ => firstDefect [(isS a, .registerCode)]
  | .yield => none
  | .exit => none
  | .trap _ => none
  | .rett => none
  | .bkpt _ => none
  | .mexec a _ => firstDefect [(isS a, .registerCode)]
  | .mrdexec d => firstDefect [(isS d, .registerCode)]
  | .mrdcm d => firstDefect [(isS d, .registerCode)]
  | .mwrcm a _ => firstDefect [(isS a, .registerCode)]
  | .mand => none
  | .melse => none
  | .setmode a _ => firstDefect [(isS a, .registerCode)]
  | .setmodeMsk d a _ _ => firstDefect [(isS d, .registerCode), (isS a, .registerCode)]
  | .getmode d => firstDefect [(isS d, .registerCode)]
  | .setfmt a _ _ => firstDefect [(isS a, .registerCode)]
  | .getfmt d _ => firstDefect [(isS d, .registerCode)]
  | .rdsr p _ => firstDefect [(isS p, .registerCode)]
  | .wrsr p _ => firstDefect [(isS p, .registerCode)]
  | .cancel p m => firstDefect [(isS p, .registerCode), (m.toNat ≤ 4, .valueField)]
  | .tspawn d a _ => firstDefect [(isS d, .registerCode), (isS a, .registerCode)]
  | .mcount d => firstDefect [(isS d, .registerCode), (isEven d, .registerCode)]
  | .vadd d _ _ _ _ => firstDefect [(isV d, .registerCode)]
  | .vsub d _ _ _ _ => firstDefect [(isV d, .registerCode)]
  | .vmul d _ _ _ _ => firstDefect [(isV d, .registerCode)]
  | .vmulh d _ _ _ _ => firstDefect [(isV d, .registerCode)]
  | .vmad d _ _ _ _ _ => firstDefect [(isV d, .registerCode)]
  | .vmin d _ _ _ _ => firstDefect [(isV d, .registerCode)]
  | .vmax d _ _ _ _ => firstDefect [(isV d, .registerCode)]
  | .vabsd d _ _ _ _ => firstDefect [(isV d, .registerCode)]
  | .vand d _ _ _ _ => firstDefect [(isV d, .registerCode)]
  | .vor d _ _ _ _ => firstDefect [(isV d, .registerCode)]
  | .vxor d _ _ _ _ => firstDefect [(isV d, .registerCode)]
  | .vandn d _ _ _ _ => firstDefect [(isV d, .registerCode)]
  | .vshl d _ _ _ _ => firstDefect [(isV d, .registerCode)]
  | .vshr d _ _ _ _ => firstDefect [(isV d, .registerCode)]
  | .vsra d _ _ _ _ => firstDefect [(isV d, .registerCode)]
  | .vsel d _ _ _ _ => firstDefect [(isV d, .registerCode)]
  | .vmov d _ _ => firstDefect [(isV d, .registerCode)]
  | .vli d _ => firstDefect [(isV d, .registerCode)]
  | .vpopc d _ _ => firstDefect [(isV d, .registerCode)]
  | .vclz d _ _ => firstDefect [(isV d, .registerCode)]
  | .vbfe d _ _ _ _ => firstDefect [(isV d, .registerCode)]
  | .vbfi d _ _ _ _ _ => firstDefect [(isV d, .registerCode)]
  | .vcmpeq _ _ _ _ => none
  | .vcmpne _ _ _ _ => none
  | .vcmplt _ _ _ _ => none
  | .vcmple _ _ _ _ => none
  | .vlaneid d => firstDefect [(isV d, .registerCode)]
  | .vdot4 d _ _ _ _ _ => firstDefect [(isV d, .registerCode)]
  | .fadd d _ _ _ _ => firstDefect [(isV d, .registerCode)]
  | .fsub d _ _ _ _ => firstDefect [(isV d, .registerCode)]
  | .fmul d _ _ _ _ => firstDefect [(isV d, .registerCode)]
  | .ffma d _ _ _ _ _ => firstDefect [(isV d, .registerCode)]
  | .fmin d _ _ _ _ => firstDefect [(isV d, .registerCode)]
  | .fmax d _ _ _ _ => firstDefect [(isV d, .registerCode)]
  | .fabs d _ _ => firstDefect [(isV d, .registerCode)]
  | .fneg d _ _ => firstDefect [(isV d, .registerCode)]
  | .fcmpeq _ _ _ _ => none
  | .fcmplt _ _ _ _ => none
  | .fcmple _ _ _ _ => none
  | .fcmpun _ _ _ _ => none
  | .frnd d _ m _ => firstDefect [(isV d, .registerCode), (m.toNat ≤ 4, .valueField)]
  | .fclass _ _ _ _ => none
  | .fsfu d _ _ _ => firstDefect [(isV d, .registerCode)]
  | .cvt d _ _ t _ _ => firstDefect [(isV d, .registerCode), (t.toNat ≤ 11, .valueField),
      (!(t.toNat == 6 || t.toNat == 7 || t.toNat == 9) || isEven d, .registerCode)]
  | .cvtn d _ _ _ _ _ => firstDefect [(isV d, .registerCode)]
  | .cvtw d _ _ _ _ => firstDefect [(isV d, .registerCode)]
  | .vtag d t => firstDefect [(isV d, .registerCode), (!(13 ≤ t.toNat && t.toNat ≤ 15), .valueField), (!(8 ≤ t.toNat && t.toNat ≤ 10) || isEven d, .registerCode)]
  | .vgettag d _ _ => firstDefect [(isB d, .registerCode)]
  | .vcmpr d _ _ => firstDefect [(isV d, .registerCode)]
  | .vshfl d _ _ _ _ => firstDefect [(isV d, .registerCode)]
  | .vshfli d _ _ _ _ => firstDefect [(isV d, .registerCode)]
  | .vred d _ p _ => firstDefect [(isB d, .registerCode), (p.toNat ≤ 5, .valueField)]
  | .vscan d _ p _ => firstDefect [(isV d, .registerCode), (p.toNat ≤ 5, .valueField)]
  | .vbcast d _ b _ _ => firstDefect [(isV d, .registerCode), (isB b, .registerCode)]
  | .vmovs d _ b _ _ => firstDefect [(isB d, .registerCode), (isB b, .registerCode)]
  | .vmovv d a b _ _ => firstDefect [(isV d, .registerCode), (isB a, .registerCode), (isB b, .registerCode)]
  | .ldB d base _ _ => firstDefect [(isV d, .registerCode), (isEven base, .registerCode)]
  | .ldH d base _ _ => firstDefect [(isV d, .registerCode), (isEven base, .registerCode)]
  | .ldW d base _ _ => firstDefect [(isV d, .registerCode), (isEven base, .registerCode)]
  | .ldD d base _ _ => firstDefect [(isV d, .registerCode), (isEven base, .registerCode), (isEven d, .registerCode)]
  | .ldQ d base _ _ => firstDefect [(isV d, .registerCode), (isEven base, .registerCode), (isQuad d, .registerCode)]
  | .stB _ base _ _ => firstDefect [(isEven base, .registerCode)]
  | .stH _ base _ _ => firstDefect [(isEven base, .registerCode)]
  | .stW _ base _ _ => firstDefect [(isEven base, .registerCode)]
  | .stD d base _ _ => firstDefect [(isEven base, .registerCode), (isEven d, .registerCode)]
  | .stQ d base _ _ => firstDefect [(isEven base, .registerCode), (isQuad d, .registerCode)]
  | .ldAcqW d base _ scope _ => firstDefect [(isV d, .registerCode), (isEven base, .registerCode), (isScope scope, .scopeField)]
  | .ldAcqD d base _ scope _ => firstDefect [(isV d, .registerCode), (isEven base, .registerCode), (isEven d, .registerCode), (isScope scope, .scopeField)]
  | .stRelW _ base _ scope _ => firstDefect [(isEven base, .registerCode), (isScope scope, .scopeField)]
  | .stRelD d base _ scope _ => firstDefect [(isEven base, .registerCode), (isEven d, .registerCode), (isScope scope, .scopeField)]
  | .sld d base _ _ => firstDefect [(isS d, .registerCode), (isS base, .registerCode), (isEven base, .registerCode)]
  | .sldD d base _ _ => firstDefect [(isS d, .registerCode), (isS base, .registerCode), (isEven base, .registerCode), (isEven d, .registerCode)]
  | .sst d base _ _ => firstDefect [(isS d, .registerCode), (isS base, .registerCode), (isEven base, .registerCode)]
  | .sstD d base _ _ => firstDefect [(isS d, .registerCode), (isS base, .registerCode), (isEven base, .registerCode), (isEven d, .registerCode)]
  | .ldsW d _ _ _ => firstDefect [(isV d, .registerCode)]
  | .ldsD d _ _ _ => firstDefect [(isV d, .registerCode), (isEven d, .registerCode)]
  | .ldsQ d _ _ _ => firstDefect [(isV d, .registerCode), (isQuad d, .registerCode)]
  | .stsW _ _ _ _ => none
  | .stsD d _ _ _ => firstDefect [(isEven d, .registerCode)]
  | .stsQ d _ _ _ => firstDefect [(isQuad d, .registerCode)]
  | .atomAdd d addr _ scope => firstDefect [(isV d, .registerCode), (isEven addr, .registerCode), (isScope scope, .scopeField)]
  | .atomMin d addr _ scope => firstDefect [(isV d, .registerCode), (isEven addr, .registerCode), (isScope scope, .scopeField)]
  | .atomMax d addr _ scope => firstDefect [(isV d, .registerCode), (isEven addr, .registerCode), (isScope scope, .scopeField)]
  | .atomAnd d addr _ scope => firstDefect [(isV d, .registerCode), (isEven addr, .registerCode), (isScope scope, .scopeField)]
  | .atomOr d addr _ scope => firstDefect [(isV d, .registerCode), (isEven addr, .registerCode), (isScope scope, .scopeField)]
  | .atomXor d addr _ scope => firstDefect [(isV d, .registerCode), (isEven addr, .registerCode), (isScope scope, .scopeField)]
  | .atomXchg d addr _ scope => firstDefect [(isV d, .registerCode), (isEven addr, .registerCode), (isScope scope, .scopeField)]
  | .atomCas d addr b scope => firstDefect [(isV d, .registerCode), (isEven addr, .registerCode), (isEven b, .registerCode), (isScope scope, .scopeField)]
  | .atomsAdd d _ _ => firstDefect [(isV d, .registerCode)]
  | .atomsMin d _ _ => firstDefect [(isV d, .registerCode)]
  | .atomsMax d _ _ => firstDefect [(isV d, .registerCode)]
  | .atomsOr d _ _ => firstDefect [(isV d, .registerCode)]
  | .atomsXchg d _ _ => firstDefect [(isV d, .registerCode)]
  | .atomsCas d _ b => firstDefect [(isV d, .registerCode), (isEven b, .registerCode)]
  | .red d addr _ scope => firstDefect [(d.toNat ≤ 5, .unassignedFunc), (isEven addr, .registerCode), (isScope scope, .scopeField)]
  | .fence kind s => firstDefect [(kind.toNat ≤ 2, .valueField), (isScope s, .scopeField)]
  | .prefetch d base _ scope _ => firstDefect [(isS d, .registerCode), (isS base, .registerCode), (isEven base, .registerCode), (isScope scope, .scopeField), (scope.toNat ≠ 4, .valueField)]
  | .cflush d base _ scope _ => firstDefect [(isS d, .registerCode), (isS base, .registerCode), (isEven base, .registerCode), (isScope scope, .scopeField)]
  | .cinv d base _ scope _ => firstDefect [(isS d, .registerCode), (isS base, .registerCode), (isEven base, .registerCode), (isScope scope, .scopeField)]
  | .icinv addr b scope => firstDefect [(isS addr, .registerCode), (isS b, .registerCode), (isEven addr, .registerCode), (isScope scope, .scopeField), (scope.toNat ≠ 4, .valueField)]
  | .monw d addr b scope => firstDefect [(isS d, .registerCode), (isS addr, .registerCode), (isS b, .registerCode), (isEven addr, .registerCode), (isEven b, .registerCode), (isScope scope, .scopeField)]
  | .pgmap d addr b => firstDefect [(isS d, .registerCode), (isS addr, .registerCode), (isS b, .registerCode), (isEven addr, .registerCode)]
  | .pgshare d addr b => firstDefect [(isS d, .registerCode), (isS addr, .registerCode), (isS b, .registerCode), (isEven addr, .registerCode), (isEven b, .registerCode)]
  | .pgrel d addr b => firstDefect [(isS d, .registerCode), (isS addr, .registerCode), (isS b, .registerCode), (isEven addr, .registerCode)]
  | .tlbinv addr b => firstDefect [(isS addr, .registerCode), (isS b, .registerCode), (isEven addr, .registerCode)]
  | .binit d a _ _ => firstDefect [(isS d, .registerCode), (isS a, .registerCode), (isEven a, .registerCode)]
  | .barr d a _ => firstDefect [(isS d, .registerCode), (isS a, .registerCode)]
  | .barrDrop d a _ => firstDefect [(isS d, .registerCode), (isS a, .registerCode)]
  | .bexp d a _ _ => firstDefect [(isS d, .registerCode), (isS a, .registerCode)]
  | .bexpAdd d a _ _ => firstDefect [(isS d, .registerCode), (isS a, .registerCode)]
  | .bwait p kreg => firstDefect [(isS p, .registerCode), (isS kreg, .registerCode)]
  | .btest d a _ => firstDefect [(isS d, .registerCode), (isS a, .registerCode), (isEven a, .registerCode)]
  | .cpyt d a _ _ _ => firstDefect [(isS d, .registerCode), (isS a, .registerCode), (isEven a, .registerCode)]
  | .kick p _ => firstDefect [(isS p, .registerCode)]
  | .rsubLd d a _ => firstDefect [(isS d, .registerCode), (isS a, .registerCode), (isEven a, .registerCode)]
  | .rsubSt d a _ => firstDefect [(isS d, .registerCode), (isS a, .registerCode), (isEven a, .registerCode)]
  | .rput a _ => firstDefect [(isS a, .registerCode)]
  | .rrel a _ => firstDefect [(isS a, .registerCode)]
  | .rcancel a _ => firstDefect [(isS a, .registerCode)]
  | .gbar => none
  | .waitc c _ => firstDefect [(c.toNat ≤ 5, .valueField)]
  | .gth a _ => firstDefect [(isS a, .registerCode)]
  | .cpyred a _ => firstDefect [(isS a, .registerCode)]
  | .tdef a _ _ => firstDefect [(isS a, .registerCode)]
  | .tdefMeas _ => none
  | .tinfo d _ _ => firstDefect [(isS d, .registerCode)]
  | .ttrans _ _ => none
  | .tscl d a _ _ => firstDefect [(d.toNat < 32, .registerCode), (isS a, .registerCode)]
  | .tcvt _ _ => none
  | .tld d a s _ _ ed => firstDefect [(isS a, .registerCode), (isQuad a, .registerCode), (isS d, .registerCode), (if s then isEven d else (d == 0#7), .registerCode), (s || !ed, .unusedField)]
  | .tst d a s _ _ ed => firstDefect [(isS a, .registerCode), (isQuad a, .registerCode), (isS d, .registerCode), (if s then isEven d else (d == 0#7), .registerCode), (s || !ed, .unusedField)]
  | .acq _ _ => none
  | .rel _ _ => none
  | .bclr ch _ p => firstDefect [(!(ch && p), .unusedField)]
  | .ldw _ => none
  | .swpw => none
  | .mma _ _ _ _ _ _ => none
  | .mmac _ _ _ _ _ _ => none
  | .ard _ _ _ _ _ => none
  | .awr _ _ _ _ _ => none
  | .bndrd d _ => firstDefect [(isS d, .registerCode)]
  | .bndrdStat d _ => firstDefect [(isS d, .registerCode)]
  | .bndwr a _ _ => firstDefect [(isS a, .registerCode)]
  | .bndwrInv _ => none
  | .hbnd d _ => firstDefect [(isS d, .registerCode)]
  | .hbndMax d _ => firstDefect [(isS d, .registerCode)]
  | .hbndRaise a _ _ => firstDefect [(isS a, .registerCode)]
  | .hbndSet a _ _ => firstDefect [(isS a, .registerCode)]
  | .mlogStat d _ => firstDefect [(isS d, .registerCode)]
  | .mlogReissue d _ => firstDefect [(isS d, .registerCode)]
  | .mlogSeal _ => none
  | .rwload d a _ _ _ => firstDefect [(isS d, .registerCode), (isS a, .registerCode), (isEven a, .registerCode)]
  | .rwloadDef n => firstDefect [(n.toNat ≤ 60, .valueField)]
  | .rwflush => none
  | .rwstat d func _ => firstDefect [(isS d, .registerCode), (func.toNat ≤ 0x44, .unassignedFunc)]
  | .trcmark p _ => firstDefect [(isS p, .registerCode)]
  | .trcctlOn => none
  | .trcctlOff => none
  | .trcctlSync => none
  | .trcctlFlush => none
  | .trcctlCfg a _ => firstDefect [(isS a, .registerCode)]
  | .smplctl a _ => firstDefect [(isS a, .registerCode)]
  | .smplctlOff => none
  | .rdpmc d func => firstDefect [(isS d, .registerCode), (isCounter func, .unassignedFunc)]
  | .rdpmcHi d func => firstDefect [(isS d, .registerCode), (isCounter func, .unassignedFunc)]
  | .sqkick _ => none
  | .job => none
  | .preempt => none
  | .restore => none
  | .grant => none
  | .reclaim => none
  | .create => none
  | .teardown => none
  | .attest => none
  | .attach => none
  | .halt => none
  | .resume => none
  | .freeze => none
  | .thaw => none
  | .step => none
  | .setbp => none
  | .debugIcinv => none
  | .dump => none
  | .wrreg => none
  | .toHost _ => none
  | .toDevice _ => none
  | .registerWrite _ _ _ => none
  | .l2quotaWrite _ _ => none
  | .powercapWrite _ => none
  | .budgetWrite _ _ => none
  | .hostWindowAccess _ _ _ => none
  | .i2cRead _ => none
  | .i2cWrite _ _ => none
  | .throttleAssert => none
  | .throttleRelease => none
  | .coldReset _ _ _ => none
  | .packageCurrentLimit => none
  | .thermalLimit _ _ => none
  | .laneFailure _ => none
  | .linkLoss _ => none
  | .fabricTransaction _ _ _ _ _ _ _ => none
  | .fabricTimeout _ => none
  | .hbmScrub _ _ => none
  | .channelSparing _ => none
  | .l2WayRetire _ _ _ _ => none
  | .frameRetire _ _ => none
  | .groveRetire _ => none
  | .lendingEnter _ => none
  | .carveUpdate _ => none
  | .headroomRead _ _ => none
  | .placementDecision _ => none
  | .localStoreDrain _ => none
  | .windowZeroFill _ => none
  | .eclassRefine _ _ _ => none
  | .teamComplete _ => none
  | .poolStart _ _ => none
  | .deadlockWalk _ => none
  | .watchdog _ => none
  | .monitorTimeout _ => none
  | .monitorEnd _ => none
  | .sampleTick _ _ => none
  | .sampleTag _ _ => none
  | .taggedRecord _ _ => none
  | .traceBlockWrite _ => none
  | .saveRequest _ => none
  | .preemptDeadline _ => none
  | .contextSave _ => none
  | .tableWalk _ => none
  | .shootdownAccept _ => none
  | .shootdownInvalidation _ _ => none
  | .shootdownAck _ _ => none
  | .gets _ _ _ _ => none
  | .getw _ _ _ _ => none
  | .coherenceGrant _ => none
  | .recallWords _ _ _ => none
  | .inv _ _ _ => none
  | .binv _ _ => none
  | .wb _ _ _ => none
  | .drop _ _ _ => none
  | .atomicRequest _ => none
  | .atomicReply _ => none
  | .loadReturn _ => none
  | .fetchFill _ => none
  | .engineRequestStart _ _ => none
  | .engineChunkDone _ _ => none
  | .gatherBatch _ _ => none
  | .copyReduceUpdate _ _ => none
  | .loaderFill _ => none
  | .storerDrain _ => none
  | .arrayStepStart _ => none
  | .arrayStepEnd _ => none
  | .reissue _ _ => none
  | .tileTransferDone _ => none
  | .trapEntry _ => none
  | .faultHalt _ => none
  | .containment _ => none
  | .forcedReset _ => none
  | .fabricResponse _ _ _ _ => none

/-- An instruction that decode accepts: no operand is refused. -/
def Instr.wellFormed (i : Instr) : Bool := i.defect.isNone

/-- An instruction that has an encoding; the steps of 95_what_each_step_holds.md have none. -/
def Instr.encoded : Instr → Bool
  | .nop => true
  | .sadd _ _ _ _ _ => true
  | .saddi _ _ _ _ => true
  | .ssub _ _ _ _ _ => true
  | .smul _ _ _ _ _ => true
  | .smulhI _ _ _ _ _ => true
  | .smulhN _ _ _ _ _ => true
  | .sand _ _ _ _ _ => true
  | .sor _ _ _ _ _ => true
  | .sxor _ _ _ _ _ => true
  | .sandn _ _ _ _ _ => true
  | .sshl _ _ _ _ _ => true
  | .sshr _ _ _ _ _ => true
  | .ssra _ _ _ _ _ => true
  | .sshiShl _ _ _ _ => true
  | .sshiShr _ _ _ _ => true
  | .sshiSra _ _ _ _ => true
  | .sshiRor _ _ _ _ => true
  | .sminI _ _ _ _ _ => true
  | .smaxI _ _ _ _ _ => true
  | .sminN _ _ _ _ _ => true
  | .smaxN _ _ _ _ _ => true
  | .scmpeq _ _ _ _ _ => true
  | .scmpne _ _ _ _ _ => true
  | .scmpltI _ _ _ _ _ => true
  | .scmpleI _ _ _ _ _ => true
  | .scmpltN _ _ _ _ _ => true
  | .scmpleN _ _ _ _ _ => true
  | .ssel _ _ _ _ _ => true
  | .sli _ _ => true
  | .smovi _ _ => true
  | .smov _ _ _ => true
  | .spopc _ _ _ => true
  | .sclz _ _ _ => true
  | .bra _ => true
  | .brs _ => true
  | .brns _ => true
  | .brany _ => true
  | .brall _ => true
  | .brnone _ => true
  | .call _ => true
  | .jr _ _ => true
  | .yield => true
  | .exit => true
  | .trap _ => true
  | .rett => true
  | .bkpt _ => true
  | .mexec _ _ => true
  | .mrdexec _ => true
  | .mrdcm _ => true
  | .mwrcm _ _ => true
  | .mand => true
  | .melse => true
  | .setmode _ _ => true
  | .setmodeMsk _ _ _ _ => true
  | .getmode _ => true
  | .setfmt _ _ _ => true
  | .getfmt _ _ => true
  | .rdsr _ _ => true
  | .wrsr _ _ => true
  | .cancel _ _ => true
  | .tspawn _ _ _ => true
  | .mcount _ => true
  | .vadd _ _ _ _ _ => true
  | .vsub _ _ _ _ _ => true
  | .vmul _ _ _ _ _ => true
  | .vmulh _ _ _ _ _ => true
  | .vmad _ _ _ _ _ _ => true
  | .vmin _ _ _ _ _ => true
  | .vmax _ _ _ _ _ => true
  | .vabsd _ _ _ _ _ => true
  | .vand _ _ _ _ _ => true
  | .vor _ _ _ _ _ => true
  | .vxor _ _ _ _ _ => true
  | .vandn _ _ _ _ _ => true
  | .vshl _ _ _ _ _ => true
  | .vshr _ _ _ _ _ => true
  | .vsra _ _ _ _ _ => true
  | .vsel _ _ _ _ _ => true
  | .vmov _ _ _ => true
  | .vli _ _ => true
  | .vpopc _ _ _ => true
  | .vclz _ _ _ => true
  | .vbfe _ _ _ _ _ => true
  | .vbfi _ _ _ _ _ _ => true
  | .vcmpeq _ _ _ _ => true
  | .vcmpne _ _ _ _ => true
  | .vcmplt _ _ _ _ => true
  | .vcmple _ _ _ _ => true
  | .vlaneid _ => true
  | .vdot4 _ _ _ _ _ _ => true
  | .fadd _ _ _ _ _ => true
  | .fsub _ _ _ _ _ => true
  | .fmul _ _ _ _ _ => true
  | .ffma _ _ _ _ _ _ => true
  | .fmin _ _ _ _ _ => true
  | .fmax _ _ _ _ _ => true
  | .fabs _ _ _ => true
  | .fneg _ _ _ => true
  | .fcmpeq _ _ _ _ => true
  | .fcmplt _ _ _ _ => true
  | .fcmple _ _ _ _ => true
  | .fcmpun _ _ _ _ => true
  | .frnd _ _ _ _ => true
  | .fclass _ _ _ _ => true
  | .fsfu _ _ _ _ => true
  | .cvt _ _ _ _ _ _ => true
  | .cvtn _ _ _ _ _ _ => true
  | .cvtw _ _ _ _ _ => true
  | .vtag _ _ => true
  | .vgettag _ _ _ => true
  | .vcmpr _ _ _ => true
  | .vshfl _ _ _ _ _ => true
  | .vshfli _ _ _ _ _ => true
  | .vred _ _ _ _ => true
  | .vscan _ _ _ _ => true
  | .vbcast _ _ _ _ _ => true
  | .vmovs _ _ _ _ _ => true
  | .vmovv _ _ _ _ _ => true
  | .ldB _ _ _ _ => true
  | .ldH _ _ _ _ => true
  | .ldW _ _ _ _ => true
  | .ldD _ _ _ _ => true
  | .ldQ _ _ _ _ => true
  | .stB _ _ _ _ => true
  | .stH _ _ _ _ => true
  | .stW _ _ _ _ => true
  | .stD _ _ _ _ => true
  | .stQ _ _ _ _ => true
  | .ldAcqW _ _ _ _ _ => true
  | .ldAcqD _ _ _ _ _ => true
  | .stRelW _ _ _ _ _ => true
  | .stRelD _ _ _ _ _ => true
  | .sld _ _ _ _ => true
  | .sldD _ _ _ _ => true
  | .sst _ _ _ _ => true
  | .sstD _ _ _ _ => true
  | .ldsW _ _ _ _ => true
  | .ldsD _ _ _ _ => true
  | .ldsQ _ _ _ _ => true
  | .stsW _ _ _ _ => true
  | .stsD _ _ _ _ => true
  | .stsQ _ _ _ _ => true
  | .atomAdd _ _ _ _ => true
  | .atomMin _ _ _ _ => true
  | .atomMax _ _ _ _ => true
  | .atomAnd _ _ _ _ => true
  | .atomOr _ _ _ _ => true
  | .atomXor _ _ _ _ => true
  | .atomXchg _ _ _ _ => true
  | .atomCas _ _ _ _ => true
  | .atomsAdd _ _ _ => true
  | .atomsMin _ _ _ => true
  | .atomsMax _ _ _ => true
  | .atomsOr _ _ _ => true
  | .atomsXchg _ _ _ => true
  | .atomsCas _ _ _ => true
  | .red _ _ _ _ => true
  | .fence _ _ => true
  | .prefetch _ _ _ _ _ => true
  | .cflush _ _ _ _ _ => true
  | .cinv _ _ _ _ _ => true
  | .icinv _ _ _ => true
  | .monw _ _ _ _ => true
  | .pgmap _ _ _ => true
  | .pgshare _ _ _ => true
  | .pgrel _ _ _ => true
  | .tlbinv _ _ => true
  | .binit _ _ _ _ => true
  | .barr _ _ _ => true
  | .barrDrop _ _ _ => true
  | .bexp _ _ _ _ => true
  | .bexpAdd _ _ _ _ => true
  | .bwait _ _ => true
  | .btest _ _ _ => true
  | .cpyt _ _ _ _ _ => true
  | .kick _ _ => true
  | .rsubLd _ _ _ => true
  | .rsubSt _ _ _ => true
  | .rput _ _ => true
  | .rrel _ _ => true
  | .rcancel _ _ => true
  | .gbar => true
  | .waitc _ _ => true
  | .gth _ _ => true
  | .cpyred _ _ => true
  | .tdef _ _ _ => true
  | .tdefMeas _ => true
  | .tinfo _ _ _ => true
  | .ttrans _ _ => true
  | .tscl _ _ _ _ => true
  | .tcvt _ _ => true
  | .tld _ _ _ _ _ _ => true
  | .tst _ _ _ _ _ _ => true
  | .acq _ _ => true
  | .rel _ _ => true
  | .bclr _ _ _ => true
  | .ldw _ => true
  | .swpw => true
  | .mma _ _ _ _ _ _ => true
  | .mmac _ _ _ _ _ _ => true
  | .ard _ _ _ _ _ => true
  | .awr _ _ _ _ _ => true
  | .bndrd _ _ => true
  | .bndrdStat _ _ => true
  | .bndwr _ _ _ => true
  | .bndwrInv _ => true
  | .hbnd _ _ => true
  | .hbndMax _ _ => true
  | .hbndRaise _ _ _ => true
  | .hbndSet _ _ _ => true
  | .mlogStat _ _ => true
  | .mlogReissue _ _ => true
  | .mlogSeal _ => true
  | .rwload _ _ _ _ _ => true
  | .rwloadDef _ => true
  | .rwflush => true
  | .rwstat _ _ _ => true
  | .trcmark _ _ => true
  | .trcctlOn => true
  | .trcctlOff => true
  | .trcctlSync => true
  | .trcctlFlush => true
  | .trcctlCfg _ _ => true
  | .smplctl _ _ => true
  | .smplctlOff => true
  | .rdpmc _ _ => true
  | .rdpmcHi _ _ => true
  | .sqkick _ => false
  | .job => false
  | .preempt => false
  | .restore => false
  | .grant => false
  | .reclaim => false
  | .create => false
  | .teardown => false
  | .attest => false
  | .attach => false
  | .halt => false
  | .resume => false
  | .freeze => false
  | .thaw => false
  | .step => false
  | .setbp => false
  | .debugIcinv => false
  | .dump => false
  | .wrreg => false
  | .toHost _ => false
  | .toDevice _ => false
  | .registerWrite _ _ _ => false
  | .l2quotaWrite _ _ => false
  | .powercapWrite _ => false
  | .budgetWrite _ _ => false
  | .hostWindowAccess _ _ _ => false
  | .i2cRead _ => false
  | .i2cWrite _ _ => false
  | .throttleAssert => false
  | .throttleRelease => false
  | .coldReset _ _ _ => false
  | .packageCurrentLimit => false
  | .thermalLimit _ _ => false
  | .laneFailure _ => false
  | .linkLoss _ => false
  | .fabricTransaction _ _ _ _ _ _ _ => false
  | .fabricTimeout _ => false
  | .hbmScrub _ _ => false
  | .channelSparing _ => false
  | .l2WayRetire _ _ _ _ => false
  | .frameRetire _ _ => false
  | .groveRetire _ => false
  | .lendingEnter _ => false
  | .carveUpdate _ => false
  | .headroomRead _ _ => false
  | .placementDecision _ => false
  | .localStoreDrain _ => false
  | .windowZeroFill _ => false
  | .eclassRefine _ _ _ => false
  | .teamComplete _ => false
  | .poolStart _ _ => false
  | .deadlockWalk _ => false
  | .watchdog _ => false
  | .monitorTimeout _ => false
  | .monitorEnd _ => false
  | .sampleTick _ _ => false
  | .sampleTag _ _ => false
  | .taggedRecord _ _ => false
  | .traceBlockWrite _ => false
  | .saveRequest _ => false
  | .preemptDeadline _ => false
  | .contextSave _ => false
  | .tableWalk _ => false
  | .shootdownAccept _ => false
  | .shootdownInvalidation _ _ => false
  | .shootdownAck _ _ => false
  | .gets _ _ _ _ => false
  | .getw _ _ _ _ => false
  | .coherenceGrant _ => false
  | .recallWords _ _ _ => false
  | .inv _ _ _ => false
  | .binv _ _ => false
  | .wb _ _ _ => false
  | .drop _ _ _ => false
  | .atomicRequest _ => false
  | .atomicReply _ => false
  | .loadReturn _ => false
  | .fetchFill _ => false
  | .engineRequestStart _ _ => false
  | .engineChunkDone _ _ => false
  | .gatherBatch _ _ => false
  | .copyReduceUpdate _ _ => false
  | .loaderFill _ => false
  | .storerDrain _ => false
  | .arrayStepStart _ => false
  | .arrayStepEnd _ => false
  | .reissue _ _ => false
  | .tileTransferDone _ => false
  | .trapEntry _ => false
  | .faultHalt _ => false
  | .containment _ => false
  | .forcedReset _ => false
  | .fabricResponse _ _ _ _ => false

end Sys2Proof
end

