-- ==== Sys2Proof/Decode.lean ====
section
/-! DEFINITION. Decoding of instruction words (R124 to R130), total on any words and rejecting by the name of the
case of R125, and after it the encoder written from the same formats. -/

namespace Sys2Proof

/-- Bits [23:0] of a word laid out by its format (R124). Format RL has the layout of RRR. -/
inductive Body where
  /-- format RRR -/
  | RRR (d a b : BitVec 7) (ea eb ed : Bool)
  /-- format RI -/
  | RI (d a : BitVec 7) (imm : BitVec 9) (ea : Bool)
  /-- format X -/
  | X (d a func : BitVec 7) (ea ed fl : Bool)
  /-- format B -/
  | B (off : BitVec 24)
  /-- format M -/
  | M (d base : BitVec 7) (off : BitVec 6) (scope : BitVec 3) (ebase : Bool)
  /-- format A -/
  | A (d addr b : BitVec 7) (scope : BitVec 3)
  /-- format S -/
  | S (p : BitVec 7) (m : BitVec 5) (k : BitVec 12)
  /-- format T -/
  | T (chain : Bool) (bank : BitVec 4) (hA hB : BitVec 5) (shape : BitVec 5) (flags : BitVec 4)
  deriving DecidableEq, Repr

/-- The formats of R124; RL is `rl`. -/
inductive Fmt where | rrr | ri | x | b | m | a | s | t | rl
  deriving DecidableEq, Repr

/-- The format that the opcode map gives a major opcode (R128); none for a reserved one. -/
def formatOf (op : BitVec 8) : Option Fmt :=
  match op.toNat with
  | 0x01 => some .s
  | 0x02 => some .rrr
  | 0x03 => some .ri
  | 0x04 => some .rrr
  | 0x05 => some .rrr
  | 0x06 => some .rrr
  | 0x07 => some .rrr
  | 0x08 => some .rrr
  | 0x09 => some .rrr
  | 0x0A => some .rrr
  | 0x0B => some .rrr
  | 0x0C => some .rrr
  | 0x0D => some .rrr
  | 0x0E => some .rrr
  | 0x0F => some .x
  | 0x10 => some .rrr
  | 0x11 => some .rrr
  | 0x12 => some .rrr
  | 0x13 => some .rrr
  | 0x14 => some .rrr
  | 0x15 => some .rrr
  | 0x16 => some .rrr
  | 0x17 => some .rrr
  | 0x18 => some .rrr
  | 0x19 => some .rrr
  | 0x1A => some .rrr
  | 0x1B => some .rl
  | 0x1C => some .ri
  | 0x1D => some .rrr
  | 0x1E => some .rrr
  | 0x1F => some .rrr
  | 0x20 => some .b
  | 0x21 => some .b
  | 0x22 => some .b
  | 0x23 => some .b
  | 0x24 => some .b
  | 0x25 => some .b
  | 0x26 => some .b
  | 0x27 => some .rrr
  | 0x29 => some .s
  | 0x2A => some .s
  | 0x2B => some .s
  | 0x2C => some .s
  | 0x2D => some .s
  | 0x30 => some .rrr
  | 0x31 => some .rrr
  | 0x32 => some .rrr
  | 0x33 => some .rrr
  | 0x34 => some .s
  | 0x35 => some .s
  | 0x36 => some .x
  | 0x37 => some .x
  | 0x38 => some .x
  | 0x39 => some .x
  | 0x3A => some .s
  | 0x3B => some .s
  | 0x3C => some .s
  | 0x3D => some .rrr
  | 0x3E => some .rrr
  | 0x40 => some .rrr
  | 0x41 => some .rrr
  | 0x42 => some .rrr
  | 0x43 => some .rrr
  | 0x44 => some .rrr
  | 0x45 => some .rrr
  | 0x46 => some .rrr
  | 0x47 => some .rrr
  | 0x48 => some .rrr
  | 0x49 => some .rrr
  | 0x4A => some .rrr
  | 0x4B => some .rrr
  | 0x4C => some .rrr
  | 0x4D => some .rrr
  | 0x4E => some .rrr
  | 0x4F => some .rrr
  | 0x50 => some .rrr
  | 0x51 => some .rl
  | 0x52 => some .rrr
  | 0x53 => some .rrr
  | 0x54 => some .rrr
  | 0x55 => some .rrr
  | 0x56 => some .rrr
  | 0x57 => some .rrr
  | 0x58 => some .rrr
  | 0x59 => some .rrr
  | 0x5A => some .rrr
  | 0x5B => some .rrr
  | 0x60 => some .rrr
  | 0x61 => some .rrr
  | 0x62 => some .rrr
  | 0x63 => some .rrr
  | 0x64 => some .rrr
  | 0x65 => some .rrr
  | 0x66 => some .rrr
  | 0x67 => some .rrr
  | 0x68 => some .rrr
  | 0x69 => some .rrr
  | 0x6A => some .rrr
  | 0x6B => some .rrr
  | 0x6C => some .x
  | 0x6D => some .rrr
  | 0x6E => some .x
  | 0x70 => some .x
  | 0x71 => some .x
  | 0x72 => some .x
  | 0x73 => some .x
  | 0x74 => some .rrr
  | 0x75 => some .rrr
  | 0x78 => some .rrr
  | 0x79 => some .x
  | 0x7A => some .x
  | 0x7B => some .x
  | 0x7C => some .rrr
  | 0x7D => some .rrr
  | 0x7E => some .rrr
  | 0x80 => some .m
  | 0x81 => some .m
  | 0x82 => some .m
  | 0x83 => some .m
  | 0x84 => some .m
  | 0x85 => some .m
  | 0x86 => some .m
  | 0x87 => some .m
  | 0x88 => some .m
  | 0x89 => some .m
  | 0x8A => some .m
  | 0x8B => some .m
  | 0x8C => some .m
  | 0x8D => some .m
  | 0x8E => some .m
  | 0x8F => some .m
  | 0x90 => some .m
  | 0x91 => some .m
  | 0x92 => some .m
  | 0x93 => some .m
  | 0x94 => some .m
  | 0x95 => some .m
  | 0x96 => some .m
  | 0x97 => some .m
  | 0x98 => some .a
  | 0x99 => some .a
  | 0x9A => some .a
  | 0x9B => some .a
  | 0x9C => some .a
  | 0x9D => some .a
  | 0x9E => some .a
  | 0x9F => some .a
  | 0xA0 => some .a
  | 0xA1 => some .a
  | 0xA2 => some .a
  | 0xA3 => some .a
  | 0xA4 => some .a
  | 0xA5 => some .a
  | 0xA6 => some .a
  | 0xA7 => some .s
  | 0xA8 => some .m
  | 0xA9 => some .m
  | 0xAA => some .m
  | 0xAB => some .a
  | 0xAC => some .a
  | 0xAD => some .a
  | 0xAE => some .a
  | 0xAF => some .a
  | 0xB0 => some .a
  | 0xB1 => some .x
  | 0xB2 => some .x
  | 0xB3 => some .x
  | 0xB4 => some .s
  | 0xB5 => some .x
  | 0xB6 => some .rl
  | 0xB7 => some .s
  | 0xB8 => some .x
  | 0xB9 => some .x
  | 0xBA => some .x
  | 0xBB => some .x
  | 0xBC => some .s
  | 0xBD => some .s
  | 0xBE => some .x
  | 0xBF => some .x
  | 0xC0 => some .x
  | 0xC1 => some .x
  | 0xC2 => some .t
  | 0xC3 => some .x
  | 0xC4 => some .t
  | 0xC5 => some .x
  | 0xC6 => some .x
  | 0xC7 => some .t
  | 0xC8 => some .t
  | 0xC9 => some .t
  | 0xCA => some .t
  | 0xCB => some .t
  | 0xCC => some .t
  | 0xCD => some .t
  | 0xCE => some .t
  | 0xCF => some .t
  | 0xD0 => some .x
  | 0xD1 => some .x
  | 0xD2 => some .x
  | 0xD3 => some .x
  | 0xE0 => some .x
  | 0xE1 => some .s
  | 0xE2 => some .x
  | 0xE8 => some .s
  | 0xE9 => some .x
  | 0xEA => some .x
  | 0xEB => some .x
  | _ => none

/-- Bits [23:0] read in a format (R124). -/
def Fmt.unpack (f : Fmt) (w : BitVec 24) : Body :=
  match f with
  | .rrr => .RRR (w.extractLsb' 17 7) (w.extractLsb' 10 7) (w.extractLsb' 3 7) ((w.extractLsb' 2 1) == 1#1) ((w.extractLsb' 1 1) == 1#1) ((w.extractLsb' 0 1) == 1#1)
  | .ri => .RI (w.extractLsb' 17 7) (w.extractLsb' 10 7) (w.extractLsb' 1 9) ((w.extractLsb' 0 1) == 1#1)
  | .x => .X (w.extractLsb' 17 7) (w.extractLsb' 10 7) (w.extractLsb' 3 7) ((w.extractLsb' 2 1) == 1#1) ((w.extractLsb' 1 1) == 1#1) ((w.extractLsb' 0 1) == 1#1)
  | .b => .B (w.extractLsb' 0 24)
  | .m => .M (w.extractLsb' 17 7) (w.extractLsb' 10 7) (w.extractLsb' 4 6) (w.extractLsb' 1 3) ((w.extractLsb' 0 1) == 1#1)
  | .a => .A (w.extractLsb' 17 7) (w.extractLsb' 10 7) (w.extractLsb' 3 7) (w.extractLsb' 0 3)
  | .s => .S (w.extractLsb' 17 7) (w.extractLsb' 12 5) (w.extractLsb' 0 12)
  | .t => .T ((w.extractLsb' 23 1) == 1#1) (w.extractLsb' 19 4) (w.extractLsb' 14 5) (w.extractLsb' 9 5) (w.extractLsb' 4 5) (w.extractLsb' 0 4)
  | .rl => .RRR (w.extractLsb' 17 7) (w.extractLsb' 10 7) (w.extractLsb' 3 7) ((w.extractLsb' 2 1) == 1#1) ((w.extractLsb' 1 1) == 1#1) ((w.extractLsb' 0 1) == 1#1)

/-- The fields of a body placed in bits [23:0] (R124). -/
def Body.pack : Body → BitVec 24
  | .RRR d a b ea eb ed => (d ++ a ++ b ++ BitVec.ofBool ea ++ BitVec.ofBool eb ++ BitVec.ofBool ed : BitVec 24)
  | .RI d a imm ea => (d ++ a ++ imm ++ BitVec.ofBool ea : BitVec 24)
  | .X d a func ea ed fl => (d ++ a ++ func ++ BitVec.ofBool ea ++ BitVec.ofBool ed ++ BitVec.ofBool fl : BitVec 24)
  | .B off => (off : BitVec 24)
  | .M d base off scope ebase => (d ++ base ++ off ++ scope ++ BitVec.ofBool ebase : BitVec 24)
  | .A d addr b scope => (d ++ addr ++ b ++ scope : BitVec 24)
  | .S p m k => (p ++ m ++ k : BitVec 24)
  | .T chain bank hA hB shape flags => (BitVec.ofBool chain ++ bank ++ hA ++ hB ++ shape ++ flags : BitVec 24)

/-- The instructions of format RRR (R128), by opcode. `lit` is the word that follows. -/
def fromRrr (op : BitVec 8) (d a b : BitVec 7) (ea eb ed : Bool) (lit : BitVec 32) : Except Defect Instr :=
  match op.toNat with
  | 0x02 => if !ed then .ok (.sadd d a b ea eb) else .error .unusedField
  | 0x04 => if !ed then .ok (.ssub d a b ea eb) else .error .unusedField
  | 0x05 => if !ed then .ok (.smul d a b ea eb) else .error .unusedField
  | 0x06 => if !ed then .ok (.smulhI d a b ea eb) else .error .unusedField
  | 0x07 => if !ed then .ok (.smulhN d a b ea eb) else .error .unusedField
  | 0x08 => if !ed then .ok (.sand d a b ea eb) else .error .unusedField
  | 0x09 => if !ed then .ok (.sor d a b ea eb) else .error .unusedField
  | 0x0A => if !ed then .ok (.sxor d a b ea eb) else .error .unusedField
  | 0x0B => if !ed then .ok (.sandn d a b ea eb) else .error .unusedField
  | 0x0C => if !ed then .ok (.sshl d a b ea eb) else .error .unusedField
  | 0x0D => if !ed then .ok (.sshr d a b ea eb) else .error .unusedField
  | 0x0E => if !ed then .ok (.ssra d a b ea eb) else .error .unusedField
  | 0x10 => if !ed then .ok (.sminI d a b ea eb) else .error .unusedField
  | 0x11 => if !ed then .ok (.smaxI d a b ea eb) else .error .unusedField
  | 0x12 => if !ed then .ok (.sminN d a b ea eb) else .error .unusedField
  | 0x13 => if !ed then .ok (.smaxN d a b ea eb) else .error .unusedField
  | 0x14 => if !ed then .ok (.scmpeq d a b ea eb) else .error .unusedField
  | 0x15 => if !ed then .ok (.scmpne d a b ea eb) else .error .unusedField
  | 0x16 => if !ed then .ok (.scmpltI d a b ea eb) else .error .unusedField
  | 0x17 => if !ed then .ok (.scmpleI d a b ea eb) else .error .unusedField
  | 0x18 => if !ed then .ok (.scmpltN d a b ea eb) else .error .unusedField
  | 0x19 => if !ed then .ok (.scmpleN d a b ea eb) else .error .unusedField
  | 0x1A => if !ed then .ok (.ssel d a b ea eb) else .error .unusedField
  | 0x1B => if a == 0#7 && b == 0#7 && !ea && !eb && !ed then .ok (.sli d lit) else .error .unusedField
  | 0x1D => if b == 0#7 && !eb && !ed then .ok (.smov d a ea) else .error .unusedField
  | 0x1E => if b == 0#7 && !eb && !ed then .ok (.spopc d a ea) else .error .unusedField
  | 0x1F => if b == 0#7 && !eb && !ed then .ok (.sclz d a ea) else .error .unusedField
  | 0x27 => if d == 0#7 && b == 0#7 && !eb && !ed then .ok (.jr a ea) else .error .unusedField
  | 0x30 => if d == 0#7 && b == 0#7 && !eb && !ed then .ok (.mexec a ea) else .error .unusedField
  | 0x31 => if a == 0#7 && b == 0#7 && !ea && !eb && !ed then .ok (.mrdexec d) else .error .unusedField
  | 0x32 => if a == 0#7 && b == 0#7 && !ea && !eb && !ed then .ok (.mrdcm d) else .error .unusedField
  | 0x33 => if d == 0#7 && b == 0#7 && !eb && !ed then .ok (.mwrcm a ea) else .error .unusedField
  | 0x3D => if b == 0#7 && !eb && !ed then .ok (.tspawn d a ea) else .error .unusedField
  | 0x3E => if a == 0#7 && b == 0#7 && !ea && !eb && !ed then .ok (.mcount d) else .error .unusedField
  | 0x40 => if !ed then .ok (.vadd d a b ea eb) else .error .unusedField
  | 0x41 => if !ed then .ok (.vsub d a b ea eb) else .error .unusedField
  | 0x42 => if !ed then .ok (.vmul d a b ea eb) else .error .unusedField
  | 0x43 => if !ed then .ok (.vmulh d a b ea eb) else .error .unusedField
  | 0x44 => .ok (.vmad d a b ea eb ed)
  | 0x45 => if !ed then .ok (.vmin d a b ea eb) else .error .unusedField
  | 0x46 => if !ed then .ok (.vmax d a b ea eb) else .error .unusedField
  | 0x47 => if !ed then .ok (.vabsd d a b ea eb) else .error .unusedField
  | 0x48 => if !ed then .ok (.vand d a b ea eb) else .error .unusedField
  | 0x49 => if !ed then .ok (.vor d a b ea eb) else .error .unusedField
  | 0x4A => if !ed then .ok (.vxor d a b ea eb) else .error .unusedField
  | 0x4B => if !ed then .ok (.vandn d a b ea eb) else .error .unusedField
  | 0x4C => if !ed then .ok (.vshl d a b ea eb) else .error .unusedField
  | 0x4D => if !ed then .ok (.vshr d a b ea eb) else .error .unusedField
  | 0x4E => if !ed then .ok (.vsra d a b ea eb) else .error .unusedField
  | 0x4F => if !ed then .ok (.vsel d a b ea eb) else .error .unusedField
  | 0x50 => if b == 0#7 && !eb && !ed then .ok (.vmov d a ea) else .error .unusedField
  | 0x51 => if a == 0#7 && b == 0#7 && !ea && !eb && !ed then .ok (.vli d lit) else .error .unusedField
  | 0x52 => if b == 0#7 && !eb && !ed then .ok (.vpopc d a ea) else .error .unusedField
  | 0x53 => if b == 0#7 && !eb && !ed then .ok (.vclz d a ea) else .error .unusedField
  | 0x54 => if !ed then .ok (.vbfe d a b ea eb) else .error .unusedField
  | 0x55 => .ok (.vbfi d a b ea eb ed)
  | 0x56 => if d == 0#7 && !ed then .ok (.vcmpeq a b ea eb) else .error .unusedField
  | 0x57 => if d == 0#7 && !ed then .ok (.vcmpne a b ea eb) else .error .unusedField
  | 0x58 => if d == 0#7 && !ed then .ok (.vcmplt a b ea eb) else .error .unusedField
  | 0x59 => if d == 0#7 && !ed then .ok (.vcmple a b ea eb) else .error .unusedField
  | 0x5A => if a == 0#7 && b == 0#7 && !ea && !eb && !ed then .ok (.vlaneid d) else .error .unusedField
  | 0x5B => .ok (.vdot4 d a b ea eb ed)
  | 0x60 => if !ed then .ok (.fadd d a b ea eb) else .error .unusedField
  | 0x61 => if !ed then .ok (.fsub d a b ea eb) else .error .unusedField
  | 0x62 => if !ed then .ok (.fmul d a b ea eb) else .error .unusedField
  | 0x63 => .ok (.ffma d a b ea eb ed)
  | 0x64 => if !ed then .ok (.fmin d a b ea eb) else .error .unusedField
  | 0x65 => if !ed then .ok (.fmax d a b ea eb) else .error .unusedField
  | 0x66 => if b == 0#7 && !eb && !ed then .ok (.fabs d a ea) else .error .unusedField
  | 0x67 => if b == 0#7 && !eb && !ed then .ok (.fneg d a ea) else .error .unusedField
  | 0x68 => if d == 0#7 && !ed then .ok (.fcmpeq a b ea eb) else .error .unusedField
  | 0x69 => if d == 0#7 && !ed then .ok (.fcmplt a b ea eb) else .error .unusedField
  | 0x6A => if d == 0#7 && !ed then .ok (.fcmple a b ea eb) else .error .unusedField
  | 0x6B => if d == 0#7 && !ed then .ok (.fcmpun a b ea eb) else .error .unusedField
  | 0x6D => if d == 0#7 && !ed then .ok (.fclass a b ea eb) else .error .unusedField
  | 0x74 => if b == 0#7 && !eb && !ed then .ok (.vgettag d a ea) else .error .unusedField
  | 0x75 => if b == 0#7 && !eb && !ed then .ok (.vcmpr d a ea) else .error .unusedField
  | 0x78 => if !ed then .ok (.vshfl d a b ea eb) else .error .unusedField
  | 0x7C => if !ed then .ok (.vbcast d a b ea eb) else .error .unusedField
  | 0x7D => if !ed then .ok (.vmovs d a b ea eb) else .error .unusedField
  | 0x7E => if !ed then .ok (.vmovv d a b ea eb) else .error .unusedField
  | 0xB6 => if b == 0#7 && !eb then .ok (.cpyt d a ea ed lit) else .error .unusedField
  | _ => .error .reservedOpcode

/-- The instructions of format RI (R128), by opcode. `lit` is the word that follows. -/
def fromRi (op : BitVec 8) (d a : BitVec 7) (imm : BitVec 9) (ea : Bool) : Except Defect Instr :=
  match op.toNat with
  | 0x03 => .ok (.saddi d a imm ea)
  | 0x1C => if a == 0#7 && !ea then .ok (.smovi d imm) else .error .unusedField
  | _ => .error .reservedOpcode

/-- The instructions of format X (R128), by opcode. `lit` is the word that follows. -/
def fromX (op : BitVec 8) (d a func : BitVec 7) (ea ed fl : Bool) : Except Defect Instr :=
  match op.toNat with
  | 0x0F => if func.extractLsb' 5 2 == 0#2 then (if !ed && !fl then .ok (.sshiShl d a (func.extractLsb' 0 5) ea) else .error .unusedField) else if func.extractLsb' 5 2 == 1#2 then (if !ed && !fl then .ok (.sshiShr d a (func.extractLsb' 0 5) ea) else .error .unusedField) else if func.extractLsb' 5 2 == 2#2 then (if !ed && !fl then .ok (.sshiSra d a (func.extractLsb' 0 5) ea) else .error .unusedField) else if func.extractLsb' 5 2 == 3#2 then (if !ed && !fl then .ok (.sshiRor d a (func.extractLsb' 0 5) ea) else .error .unusedField) else .error .unassignedFunc
  | 0x36 => if func == 0#7 then (if d == 0#7 && !ed && !fl then .ok (.setmode a ea) else .error .unusedField) else if func == 1#7 then (if !fl then .ok (.setmodeMsk d a ea ed) else .error .unusedField) else .error .unassignedFunc
  | 0x37 => if func == 0#7 then (if a == 0#7 && !ea && !ed && !fl then .ok (.getmode d) else .error .unusedField) else .error .unassignedFunc
  | 0x38 => if func.extractLsb' 4 3 == 0#3 then (if d == 0#7 && !ed && !fl then .ok (.setfmt a (func.extractLsb' 0 4) ea) else .error .unusedField) else .error .unassignedFunc
  | 0x39 => if func.extractLsb' 4 3 == 0#3 then (if a == 0#7 && !ea && !ed && !fl then .ok (.getfmt d (func.extractLsb' 0 4)) else .error .unusedField) else .error .unassignedFunc
  | 0x6C => if func.extractLsb' 3 4 == 0#4 then (if !ed && !fl then .ok (.frnd d a (func.extractLsb' 0 3) ea) else .error .unusedField) else .error .unassignedFunc
  | 0x6E => if func.extractLsb' 3 4 == 0#4 then (if !ed && !fl then .ok (.fsfu d a (func.extractLsb' 0 3) ea) else .error .unusedField) else .error .unassignedFunc
  | 0x70 => if !fl then .ok (.cvt d a (func.extractLsb' 5 2) (func.extractLsb' 0 5) ea ed) else .error .unusedField
  | 0x71 => if func.extractLsb' 6 1 == 0#1 then (if !fl then .ok (.cvtn d a (func.extractLsb' 4 2) (func.extractLsb' 0 4) ea ed) else .error .unusedField) else .error .unassignedFunc
  | 0x72 => if func.extractLsb' 6 1 == 0#1 then (if !ed && !fl then .ok (.cvtw d a (func.extractLsb' 4 2) (func.extractLsb' 0 4) ea) else .error .unusedField) else .error .unassignedFunc
  | 0x73 => if func.extractLsb' 5 2 == 0#2 then (if a == 0#7 && !ea && !ed && !fl then .ok (.vtag d (func.extractLsb' 0 5)) else .error .unusedField) else .error .unassignedFunc
  | 0x79 => if !ed && !fl then .ok (.vshfli d a (func.extractLsb' 5 2) (func.extractLsb' 0 5) ea) else .error .unusedField
  | 0x7A => if func.extractLsb' 3 4 == 0#4 then (if !ed && !fl then .ok (.vred d a (func.extractLsb' 0 3) ea) else .error .unusedField) else .error .unassignedFunc
  | 0x7B => if func.extractLsb' 3 4 == 0#4 then (if !ed && !fl then .ok (.vscan d a (func.extractLsb' 0 3) ea) else .error .unusedField) else .error .unassignedFunc
  | 0xB1 => if func == 0#7 then (if !fl then .ok (.binit d a ea ed) else .error .unusedField) else .error .unassignedFunc
  | 0xB2 => if func == 0#7 then (if !ed && !fl then .ok (.barr d a ea) else .error .unusedField) else if func == 1#7 then (if !ed && !fl then .ok (.barrDrop d a ea) else .error .unusedField) else .error .unassignedFunc
  | 0xB3 => if func == 0#7 then (if !fl then .ok (.bexp d a ea ed) else .error .unusedField) else if func == 1#7 then (if !fl then .ok (.bexpAdd d a ea ed) else .error .unusedField) else .error .unassignedFunc
  | 0xB5 => if func == 0#7 then (if !ed && !fl then .ok (.btest d a ea) else .error .unusedField) else .error .unassignedFunc
  | 0xB8 => if func == 0#7 then (if !ed && !fl then .ok (.rsubLd d a ea) else .error .unusedField) else if func == 1#7 then (if !ed && !fl then .ok (.rsubSt d a ea) else .error .unusedField) else .error .unassignedFunc
  | 0xB9 => if func == 0#7 then (if d == 0#7 && !ed && !fl then .ok (.rput a ea) else .error .unusedField) else .error .unassignedFunc
  | 0xBA => if func == 0#7 then (if d == 0#7 && !ed && !fl then .ok (.rrel a ea) else .error .unusedField) else .error .unassignedFunc
  | 0xBB => if func == 0#7 then (if d == 0#7 && !ed && !fl then .ok (.rcancel a ea) else .error .unusedField) else .error .unassignedFunc
  | 0xBE => if func == 0#7 then (if d == 0#7 && !ed && !fl then .ok (.gth a ea) else .error .unusedField) else .error .unassignedFunc
  | 0xBF => if func == 0#7 then (if d == 0#7 && !ed && !fl then .ok (.cpyred a ea) else .error .unusedField) else .error .unassignedFunc
  | 0xC0 => if func.extractLsb' 5 2 == 0#2 then (if d == 0#7 && !ed && !fl then .ok (.tdef a (func.extractLsb' 0 5) ea) else .error .unusedField) else if func.extractLsb' 5 2 == 1#2 then (if d == 0#7 && a == 0#7 && !ea && !ed && !fl then .ok (.tdefMeas (func.extractLsb' 0 5)) else .error .unusedField) else .error .unassignedFunc
  | 0xC1 => if a == 0#7 && !ea && !ed && !fl then .ok (.tinfo d (func.extractLsb' 5 2) (func.extractLsb' 0 5)) else .error .unusedField
  | 0xC3 => if func.extractLsb' 5 2 == 0#2 then (if !ed && !fl then .ok (.tscl d a (func.extractLsb' 0 5) ea) else .error .unusedField) else .error .unassignedFunc
  | 0xC5 => if func.extractLsb' 6 1 == 0#1 then (if !fl then .ok (.tld d a ((func.extractLsb' 5 1) == 1#1) (func.extractLsb' 0 5) ea ed) else .error .unusedField) else .error .unassignedFunc
  | 0xC6 => if func.extractLsb' 6 1 == 0#1 then (if !fl then .ok (.tst d a ((func.extractLsb' 5 1) == 1#1) (func.extractLsb' 0 5) ea ed) else .error .unusedField) else .error .unassignedFunc
  | 0xD0 => if func.extractLsb' 4 3 == 0#3 then (if a == 0#7 && !ea && !ed && !fl then .ok (.bndrd d (func.extractLsb' 0 4)) else .error .unusedField) else if func.extractLsb' 4 3 == 1#3 then (if a == 0#7 && !ea && !ed && !fl then .ok (.bndrdStat d (func.extractLsb' 0 4)) else .error .unusedField) else .error .unassignedFunc
  | 0xD1 => if func.extractLsb' 4 3 == 0#3 then (if d == 0#7 && !ed && !fl then .ok (.bndwr a (func.extractLsb' 0 4) ea) else .error .unusedField) else if func.extractLsb' 4 3 == 1#3 then (if d == 0#7 && a == 0#7 && !ea && !ed && !fl then .ok (.bndwrInv (func.extractLsb' 0 4)) else .error .unusedField) else .error .unassignedFunc
  | 0xD2 => if func.extractLsb' 5 2 == 0#2 then (if a == 0#7 && !ea && !ed && !fl then .ok (.hbnd d (func.extractLsb' 0 5)) else .error .unusedField) else if func.extractLsb' 5 2 == 1#2 then (if a == 0#7 && !ea && !ed && !fl then .ok (.hbndMax d (func.extractLsb' 0 5)) else .error .unusedField) else if func.extractLsb' 5 2 == 2#2 then (if d == 0#7 && !ed && !fl then .ok (.hbndRaise a (func.extractLsb' 0 5) ea) else .error .unusedField) else if func.extractLsb' 5 2 == 3#2 then (if d == 0#7 && !ed && !fl then .ok (.hbndSet a (func.extractLsb' 0 5) ea) else .error .unusedField) else .error .unassignedFunc
  | 0xD3 => if func.extractLsb' 4 3 == 0#3 then (if a == 0#7 && !ea && !ed && !fl then .ok (.mlogStat d (func.extractLsb' 0 4)) else .error .unusedField) else if func.extractLsb' 4 3 == 1#3 then (if a == 0#7 && !ea && !ed && !fl then .ok (.mlogReissue d (func.extractLsb' 0 4)) else .error .unusedField) else if func.extractLsb' 4 3 == 2#3 then (if d == 0#7 && a == 0#7 && !ea && !ed && !fl then .ok (.mlogSeal (func.extractLsb' 0 4)) else .error .unusedField) else .error .unassignedFunc
  | 0xE0 => if func.extractLsb' 6 1 == 0#1 then (if !fl then .ok (.rwload d a (func.extractLsb' 0 6) ea ed) else .error .unusedField) else if func.extractLsb' 6 1 == 1#1 then (if d == 0#7 && a == 0#7 && !ea && !ed && !fl then .ok (.rwloadDef (func.extractLsb' 0 6)) else .error .unusedField) else .error .unassignedFunc
  | 0xE2 => if a == 0#7 && !ea && !ed then .ok (.rwstat d func fl) else .error .unusedField
  | 0xE9 => if func == 0#7 then (if d == 0#7 && a == 0#7 && !ea && !ed && !fl then .ok (.trcctlOn) else .error .unusedField) else if func == 1#7 then (if d == 0#7 && a == 0#7 && !ea && !ed && !fl then .ok (.trcctlOff) else .error .unusedField) else if func == 2#7 then (if d == 0#7 && a == 0#7 && !ea && !ed && !fl then .ok (.trcctlSync) else .error .unusedField) else if func == 3#7 then (if d == 0#7 && a == 0#7 && !ea && !ed && !fl then .ok (.trcctlFlush) else .error .unusedField) else if func == 4#7 then (if d == 0#7 && !ed && !fl then .ok (.trcctlCfg a ea) else .error .unusedField) else .error .unassignedFunc
  | 0xEA => if func == 0#7 then (if d == 0#7 && !ed && !fl then .ok (.smplctl a ea) else .error .unusedField) else if func == 1#7 then (if d == 0#7 && a == 0#7 && !ea && !ed && !fl then .ok (.smplctlOff) else .error .unusedField) else .error .unassignedFunc
  | 0xEB => if a == 0#7 && !ea && !ed && !fl then .ok (.rdpmc d func) else if a == 0#7 && !ea && !ed && fl then .ok (.rdpmcHi d func) else .error .unusedField
  | _ => .error .reservedOpcode

/-- The instructions of format B (R128), by opcode. `lit` is the word that follows. -/
def fromB (op : BitVec 8) (off : BitVec 24) : Except Defect Instr :=
  match op.toNat with
  | 0x20 => .ok (.bra off)
  | 0x21 => .ok (.brs off)
  | 0x22 => .ok (.brns off)
  | 0x23 => .ok (.brany off)
  | 0x24 => .ok (.brall off)
  | 0x25 => .ok (.brnone off)
  | 0x26 => .ok (.call off)
  | _ => .error .reservedOpcode

/-- The instructions of format M (R128), by opcode. `lit` is the word that follows. -/
def fromM (op : BitVec 8) (d base : BitVec 7) (off : BitVec 6) (scope : BitVec 3) (ebase : Bool) : Except Defect Instr :=
  match op.toNat with
  | 0x80 => if scope == 0#3 then .ok (.ldB d base off ebase) else .error .unusedField
  | 0x81 => if scope == 0#3 then .ok (.ldH d base off ebase) else .error .unusedField
  | 0x82 => if scope == 0#3 then .ok (.ldW d base off ebase) else .error .unusedField
  | 0x83 => if scope == 0#3 then .ok (.ldD d base off ebase) else .error .unusedField
  | 0x84 => if scope == 0#3 then .ok (.ldQ d base off ebase) else .error .unusedField
  | 0x85 => if scope == 0#3 then .ok (.stB d base off ebase) else .error .unusedField
  | 0x86 => if scope == 0#3 then .ok (.stH d base off ebase) else .error .unusedField
  | 0x87 => if scope == 0#3 then .ok (.stW d base off ebase) else .error .unusedField
  | 0x88 => if scope == 0#3 then .ok (.stD d base off ebase) else .error .unusedField
  | 0x89 => if scope == 0#3 then .ok (.stQ d base off ebase) else .error .unusedField
  | 0x8A => .ok (.ldAcqW d base off scope ebase)
  | 0x8B => .ok (.ldAcqD d base off scope ebase)
  | 0x8C => .ok (.stRelW d base off scope ebase)
  | 0x8D => .ok (.stRelD d base off scope ebase)
  | 0x8E => if scope == 0#3 then .ok (.sld d base off ebase) else .error .unusedField
  | 0x8F => if scope == 0#3 then .ok (.sldD d base off ebase) else .error .unusedField
  | 0x90 => if scope == 0#3 then .ok (.sst d base off ebase) else .error .unusedField
  | 0x91 => if scope == 0#3 then .ok (.sstD d base off ebase) else .error .unusedField
  | 0x92 => if scope == 0#3 then .ok (.ldsW d base off ebase) else .error .unusedField
  | 0x93 => if scope == 0#3 then .ok (.ldsD d base off ebase) else .error .unusedField
  | 0x94 => if scope == 0#3 then .ok (.ldsQ d base off ebase) else .error .unusedField
  | 0x95 => if scope == 0#3 then .ok (.stsW d base off ebase) else .error .unusedField
  | 0x96 => if scope == 0#3 then .ok (.stsD d base off ebase) else .error .unusedField
  | 0x97 => if scope == 0#3 then .ok (.stsQ d base off ebase) else .error .unusedField
  | 0xA8 => .ok (.prefetch d base off scope ebase)
  | 0xA9 => .ok (.cflush d base off scope ebase)
  | 0xAA => .ok (.cinv d base off scope ebase)
  | _ => .error .reservedOpcode

/-- The instructions of format A (R128), by opcode. `lit` is the word that follows. -/
def fromA (op : BitVec 8) (d addr b : BitVec 7) (scope : BitVec 3) : Except Defect Instr :=
  match op.toNat with
  | 0x98 => .ok (.atomAdd d addr b scope)
  | 0x99 => .ok (.atomMin d addr b scope)
  | 0x9A => .ok (.atomMax d addr b scope)
  | 0x9B => .ok (.atomAnd d addr b scope)
  | 0x9C => .ok (.atomOr d addr b scope)
  | 0x9D => .ok (.atomXor d addr b scope)
  | 0x9E => .ok (.atomXchg d addr b scope)
  | 0x9F => .ok (.atomCas d addr b scope)
  | 0xA0 => if scope == 0#3 then .ok (.atomsAdd d addr b) else .error .unusedField
  | 0xA1 => if scope == 0#3 then .ok (.atomsMin d addr b) else .error .unusedField
  | 0xA2 => if scope == 0#3 then .ok (.atomsMax d addr b) else .error .unusedField
  | 0xA3 => if scope == 0#3 then .ok (.atomsOr d addr b) else .error .unusedField
  | 0xA4 => if scope == 0#3 then .ok (.atomsXchg d addr b) else .error .unusedField
  | 0xA5 => if scope == 0#3 then .ok (.atomsCas d addr b) else .error .unusedField
  | 0xA6 => .ok (.red d addr b scope)
  | 0xAB => if d == 0#7 then .ok (.icinv addr b scope) else .error .unusedField
  | 0xAC => .ok (.monw d addr b scope)
  | 0xAD => if scope == 3#3 then .ok (.pgmap d addr b) else .error .unusedField
  | 0xAE => if scope == 3#3 then .ok (.pgshare d addr b) else .error .unusedField
  | 0xAF => if scope == 3#3 then .ok (.pgrel d addr b) else .error .unusedField
  | 0xB0 => if d == 0#7 && scope == 3#3 then .ok (.tlbinv addr b) else .error .unusedField
  | _ => .error .reservedOpcode

/-- The instructions of format S (R128), by opcode. `lit` is the word that follows. -/
def fromS (op : BitVec 8) (p : BitVec 7) (m : BitVec 5) (k : BitVec 12) : Except Defect Instr :=
  match op.toNat with
  | 0x01 => if p == 0#7 && m == 0#5 && k == 0#12 then .ok (.nop) else .error .unusedField
  | 0x29 => if p == 0#7 && m == 0#5 && k == 0#12 then .ok (.yield) else .error .unusedField
  | 0x2A => if p == 0#7 && m == 0#5 && k == 0#12 then .ok (.exit) else .error .unusedField
  | 0x2B => if p == 0#7 && m == 0#5 then .ok (.trap k) else .error .unusedField
  | 0x2C => if p == 0#7 && m == 0#5 && k == 0#12 then .ok (.rett) else .error .unusedField
  | 0x2D => if p == 0#7 && m == 0#5 then .ok (.bkpt k) else .error .unusedField
  | 0x34 => if p == 0#7 && m == 0#5 && k == 0#12 then .ok (.mand) else .error .unusedField
  | 0x35 => if p == 0#7 && m == 0#5 && k == 0#12 then .ok (.melse) else .error .unusedField
  | 0x3A => if m == 0#5 then .ok (.rdsr p k) else .error .unusedField
  | 0x3B => if m == 0#5 then .ok (.wrsr p k) else .error .unusedField
  | 0x3C => if k == 0#12 then .ok (.cancel p m) else .error .unusedField
  | 0xA7 => if p == 0#7 && k == 0#12 then .ok (.fence (m.extractLsb' 3 2) (m.extractLsb' 0 3)) else .error .unusedField
  | 0xB4 => if m == 0#5 && k.extractLsb' 7 5 == 0#5 then .ok (.bwait p (k.extractLsb' 0 7)) else .error .unusedField
  | 0xB7 => if m == 0#5 && k.extractLsb' 5 7 == 0#7 then .ok (.kick p (k.extractLsb' 0 5)) else .error .unusedField
  | 0xBC => if p == 0#7 && m == 0#5 && k == 0#12 then .ok (.gbar) else .error .unusedField
  | 0xBD => if p == 0#7 && m.extractLsb' 3 2 == 0#2 && k.extractLsb' 6 6 == 0#6 then .ok (.waitc (m.extractLsb' 0 3) (k.extractLsb' 0 6)) else .error .unusedField
  | 0xE1 => if p == 0#7 && m == 0#5 && k == 0#12 then .ok (.rwflush) else .error .unusedField
  | 0xE8 => if m == 0#5 then .ok (.trcmark p k) else .error .unusedField
  | _ => .error .reservedOpcode

/-- The instructions of format T (R128), by opcode. `lit` is the word that follows. -/
def fromT (op : BitVec 8) (chain : Bool) (bank : BitVec 4) (hA hB : BitVec 5) (shape : BitVec 5) (flags : BitVec 4) : Except Defect Instr :=
  match op.toNat with
  | 0xC2 => if shape == 0#5 then (if !chain && bank == 0#4 && flags == 0#4 then .ok (.ttrans hA hB) else .error .unusedField) else .error .unassignedFunc
  | 0xC4 => if shape == 0#5 then (if !chain && bank == 0#4 && flags == 0#4 then .ok (.tcvt hA hB) else .error .unusedField) else .error .unassignedFunc
  | 0xC7 => if shape == 0#5 then (if hA == 0#5 && hB == 0#5 && flags == 0#4 then .ok (.acq chain bank) else .error .unusedField) else .error .unassignedFunc
  | 0xC8 => if shape == 0#5 then (if hA == 0#5 && hB == 0#5 && flags == 0#4 then .ok (.rel chain bank) else .error .unusedField) else .error .unassignedFunc
  | 0xC9 => if shape == 0#5 then (if hA == 0#5 && hB == 0#5 && flags.extractLsb' 1 3 == 0#3 && !(chain && (flags.extractLsb' 0 1) == 1#1) then .ok (.bclr chain bank ((flags.extractLsb' 0 1) == 1#1)) else .error .unusedField) else .error .unassignedFunc
  | 0xCA => if shape == 0#5 then (if !chain && bank == 0#4 && hA == 0#5 && flags == 0#4 then .ok (.ldw hB) else .error .unusedField) else .error .unassignedFunc
  | 0xCB => if shape == 0#5 then (if !chain && bank == 0#4 && hA == 0#5 && hB == 0#5 && flags == 0#4 then .ok (.swpw) else .error .unusedField) else .error .unassignedFunc
  | 0xCC => if shape.extractLsb' 0 1 == 0#1 then (if !chain && hB == 0#5 then .ok (.mma bank hA (shape.extractLsb' 3 2) (shape.extractLsb' 1 2) ((flags.extractLsb' 3 1) == 1#1) (flags.extractLsb' 0 3)) else .error .unusedField) else .error .unassignedFunc
  | 0xCD => if shape.extractLsb' 0 1 == 0#1 then (if chain && hB == 0#5 then .ok (.mmac bank hA (shape.extractLsb' 3 2) (shape.extractLsb' 1 2) ((flags.extractLsb' 3 1) == 1#1) (flags.extractLsb' 0 3)) else .error .unusedField) else .error .unassignedFunc
  | 0xCE => if shape.extractLsb' 0 1 == 0#1 then (if hB == 0#5 && flags == 0#4 then .ok (.ard chain bank hA (shape.extractLsb' 3 2) (shape.extractLsb' 1 2)) else .error .unusedField) else .error .unassignedFunc
  | 0xCF => if shape.extractLsb' 0 1 == 0#1 then (if !chain && hB == 0#5 && flags.extractLsb' 1 3 == 0#3 then .ok (.awr bank hA (shape.extractLsb' 3 2) (shape.extractLsb' 1 2) ((flags.extractLsb' 0 1) == 1#1)) else .error .unusedField) else .error .unassignedFunc
  | _ => .error .reservedOpcode

/-- The instruction of a body under an opcode. -/
def Body.instr (op : BitVec 8) (lit : BitVec 32) : Body → Except Defect Instr
  | .RRR d a b ea eb ed => fromRrr op d a b ea eb ed lit
  | .RI d a imm ea => fromRi op d a imm ea
  | .X d a func ea ed fl => fromX op d a func ea ed fl
  | .B off => fromB op off
  | .M d base off scope ebase => fromM op d base off scope ebase
  | .A d addr b scope => fromA op d addr b scope
  | .S p m k => fromS op p m k
  | .T chain bank hA hB shape flags => fromT op chain bank hA hB shape flags

/-- Decode of an instruction word `w` followed by the word `lit` (R125). The literal is used by format RL alone and is
never decoded. -/
def decode (w lit : BitVec 32) : Except Defect Instr :=
  if w == 0#32 || w == 0xFFFFFFFF#32 then .error .fixedWord
  else
    match formatOf (w.extractLsb' 24 8) with
    | none => .error .reservedOpcode
    | some f =>
      match (f.unpack (w.extractLsb' 0 24)).instr (w.extractLsb' 24 8) lit with
      | .error d => .error d
      | .ok i =>
        match i.defect with
        | some d => .error d
        | none => .ok i

/-- The words of format RL take two words (R124). -/
def isRl (w : BitVec 32) : Bool := formatOf (w.extractLsb' 24 8) == some .rl

/-- Four bytes, lowest address first, as a little-endian word (R6). -/
def wordOfBytes (b0 b1 b2 b3 : BitVec 8) : BitVec 32 := b3 ++ b2 ++ b1 ++ b0

/-- Decode from the bytes at the PC (R124, R142): the instruction and the bytes after it; a stream that ends inside the
instruction has no instruction. -/
def decodeBytes : List (BitVec 8) → Option (Except Defect Instr × List (BitVec 8))
  | b0 :: b1 :: b2 :: b3 :: rest =>
    let w := wordOfBytes b0 b1 b2 b3
    if isRl w then
      match rest with
      | c0 :: c1 :: c2 :: c3 :: rest' => some (decode w (wordOfBytes c0 c1 c2 c3), rest')
      | _ => none
    else some (decode w 0#32, rest)
  | _ => none

/-- The decoder on an instruction whose bits are `w`, bit 0 the least significant bit of the first word; the second word
is bits [63:32], zero when `nbits` does not reach it. -/
def decodeTableWord (nbits w : Nat) : Option Instr :=
  let v := w % 2 ^ nbits
  match decode (BitVec.ofNat 32 v) (BitVec.ofNat 32 (v / 2 ^ 32)) with
  | .ok i => some i
  | .error _ => none

/-- The opcode, the body and the literal word that encode an instruction (R124, R128); none for a step, which has no
encoding. -/
def Instr.fields : Instr → Option (BitVec 8 × Body × BitVec 32)
  | .nop => some (0x01#8, .S 0#7 0#5 0#12, 0#32)
  | .sadd d a b ea eb => some (0x02#8, .RRR d a b ea eb false, 0#32)
  | .saddi d a imm ea => some (0x03#8, .RI d a imm ea, 0#32)
  | .ssub d a b ea eb => some (0x04#8, .RRR d a b ea eb false, 0#32)
  | .smul d a b ea eb => some (0x05#8, .RRR d a b ea eb false, 0#32)
  | .smulhI d a b ea eb => some (0x06#8, .RRR d a b ea eb false, 0#32)
  | .smulhN d a b ea eb => some (0x07#8, .RRR d a b ea eb false, 0#32)
  | .sand d a b ea eb => some (0x08#8, .RRR d a b ea eb false, 0#32)
  | .sor d a b ea eb => some (0x09#8, .RRR d a b ea eb false, 0#32)
  | .sxor d a b ea eb => some (0x0A#8, .RRR d a b ea eb false, 0#32)
  | .sandn d a b ea eb => some (0x0B#8, .RRR d a b ea eb false, 0#32)
  | .sshl d a b ea eb => some (0x0C#8, .RRR d a b ea eb false, 0#32)
  | .sshr d a b ea eb => some (0x0D#8, .RRR d a b ea eb false, 0#32)
  | .ssra d a b ea eb => some (0x0E#8, .RRR d a b ea eb false, 0#32)
  | .sshiShl d a n ea => some (0x0F#8, .X d a (0#2 ++ n) ea false false, 0#32)
  | .sshiShr d a n ea => some (0x0F#8, .X d a (1#2 ++ n) ea false false, 0#32)
  | .sshiSra d a n ea => some (0x0F#8, .X d a (2#2 ++ n) ea false false, 0#32)
  | .sshiRor d a n ea => some (0x0F#8, .X d a (3#2 ++ n) ea false false, 0#32)
  | .sminI d a b ea eb => some (0x10#8, .RRR d a b ea eb false, 0#32)
  | .smaxI d a b ea eb => some (0x11#8, .RRR d a b ea eb false, 0#32)
  | .sminN d a b ea eb => some (0x12#8, .RRR d a b ea eb false, 0#32)
  | .smaxN d a b ea eb => some (0x13#8, .RRR d a b ea eb false, 0#32)
  | .scmpeq d a b ea eb => some (0x14#8, .RRR d a b ea eb false, 0#32)
  | .scmpne d a b ea eb => some (0x15#8, .RRR d a b ea eb false, 0#32)
  | .scmpltI d a b ea eb => some (0x16#8, .RRR d a b ea eb false, 0#32)
  | .scmpleI d a b ea eb => some (0x17#8, .RRR d a b ea eb false, 0#32)
  | .scmpltN d a b ea eb => some (0x18#8, .RRR d a b ea eb false, 0#32)
  | .scmpleN d a b ea eb => some (0x19#8, .RRR d a b ea eb false, 0#32)
  | .ssel d a b ea eb => some (0x1A#8, .RRR d a b ea eb false, 0#32)
  | .sli d lit => some (0x1B#8, .RRR d 0#7 0#7 false false false, lit)
  | .smovi d imm => some (0x1C#8, .RI d 0#7 imm false, 0#32)
  | .smov d a ea => some (0x1D#8, .RRR d a 0#7 ea false false, 0#32)
  | .spopc d a ea => some (0x1E#8, .RRR d a 0#7 ea false false, 0#32)
  | .sclz d a ea => some (0x1F#8, .RRR d a 0#7 ea false false, 0#32)
  | .bra off => some (0x20#8, .B off, 0#32)
  | .brs off => some (0x21#8, .B off, 0#32)
  | .brns off => some (0x22#8, .B off, 0#32)
  | .brany off => some (0x23#8, .B off, 0#32)
  | .brall off => some (0x24#8, .B off, 0#32)
  | .brnone off => some (0x25#8, .B off, 0#32)
  | .call off => some (0x26#8, .B off, 0#32)
  | .jr a ea => some (0x27#8, .RRR 0#7 a 0#7 ea false false, 0#32)
  | .yield => some (0x29#8, .S 0#7 0#5 0#12, 0#32)
  | .exit => some (0x2A#8, .S 0#7 0#5 0#12, 0#32)
  | .trap k => some (0x2B#8, .S 0#7 0#5 k, 0#32)
  | .rett => some (0x2C#8, .S 0#7 0#5 0#12, 0#32)
  | .bkpt k => some (0x2D#8, .S 0#7 0#5 k, 0#32)
  | .mexec a ea => some (0x30#8, .RRR 0#7 a 0#7 ea false false, 0#32)
  | .mrdexec d => some (0x31#8, .RRR d 0#7 0#7 false false false, 0#32)
  | .mrdcm d => some (0x32#8, .RRR d 0#7 0#7 false false false, 0#32)
  | .mwrcm a ea => some (0x33#8, .RRR 0#7 a 0#7 ea false false, 0#32)
  | .mand => some (0x34#8, .S 0#7 0#5 0#12, 0#32)
  | .melse => some (0x35#8, .S 0#7 0#5 0#12, 0#32)
  | .setmode a ea => some (0x36#8, .X 0#7 a 0#7 ea false false, 0#32)
  | .setmodeMsk d a ea ed => some (0x36#8, .X d a 1#7 ea ed false, 0#32)
  | .getmode d => some (0x37#8, .X d 0#7 0#7 false false false, 0#32)
  | .setfmt a k ea => some (0x38#8, .X 0#7 a (0#3 ++ k) ea false false, 0#32)
  | .getfmt d k => some (0x39#8, .X d 0#7 (0#3 ++ k) false false false, 0#32)
  | .rdsr p k => some (0x3A#8, .S p 0#5 k, 0#32)
  | .wrsr p k => some (0x3B#8, .S p 0#5 k, 0#32)
  | .cancel p m => some (0x3C#8, .S p m 0#12, 0#32)
  | .tspawn d a ea => some (0x3D#8, .RRR d a 0#7 ea false false, 0#32)
  | .mcount d => some (0x3E#8, .RRR d 0#7 0#7 false false false, 0#32)
  | .vadd d a b ea eb => some (0x40#8, .RRR d a b ea eb false, 0#32)
  | .vsub d a b ea eb => some (0x41#8, .RRR d a b ea eb false, 0#32)
  | .vmul d a b ea eb => some (0x42#8, .RRR d a b ea eb false, 0#32)
  | .vmulh d a b ea eb => some (0x43#8, .RRR d a b ea eb false, 0#32)
  | .vmad d a b ea eb ed => some (0x44#8, .RRR d a b ea eb ed, 0#32)
  | .vmin d a b ea eb => some (0x45#8, .RRR d a b ea eb false, 0#32)
  | .vmax d a b ea eb => some (0x46#8, .RRR d a b ea eb false, 0#32)
  | .vabsd d a b ea eb => some (0x47#8, .RRR d a b ea eb false, 0#32)
  | .vand d a b ea eb => some (0x48#8, .RRR d a b ea eb false, 0#32)
  | .vor d a b ea eb => some (0x49#8, .RRR d a b ea eb false, 0#32)
  | .vxor d a b ea eb => some (0x4A#8, .RRR d a b ea eb false, 0#32)
  | .vandn d a b ea eb => some (0x4B#8, .RRR d a b ea eb false, 0#32)
  | .vshl d a b ea eb => some (0x4C#8, .RRR d a b ea eb false, 0#32)
  | .vshr d a b ea eb => some (0x4D#8, .RRR d a b ea eb false, 0#32)
  | .vsra d a b ea eb => some (0x4E#8, .RRR d a b ea eb false, 0#32)
  | .vsel d a b ea eb => some (0x4F#8, .RRR d a b ea eb false, 0#32)
  | .vmov d a ea => some (0x50#8, .RRR d a 0#7 ea false false, 0#32)
  | .vli d lit => some (0x51#8, .RRR d 0#7 0#7 false false false, lit)
  | .vpopc d a ea => some (0x52#8, .RRR d a 0#7 ea false false, 0#32)
  | .vclz d a ea => some (0x53#8, .RRR d a 0#7 ea false false, 0#32)
  | .vbfe d a b ea eb => some (0x54#8, .RRR d a b ea eb false, 0#32)
  | .vbfi d a b ea eb ed => some (0x55#8, .RRR d a b ea eb ed, 0#32)
  | .vcmpeq a b ea eb => some (0x56#8, .RRR 0#7 a b ea eb false, 0#32)
  | .vcmpne a b ea eb => some (0x57#8, .RRR 0#7 a b ea eb false, 0#32)
  | .vcmplt a b ea eb => some (0x58#8, .RRR 0#7 a b ea eb false, 0#32)
  | .vcmple a b ea eb => some (0x59#8, .RRR 0#7 a b ea eb false, 0#32)
  | .vlaneid d => some (0x5A#8, .RRR d 0#7 0#7 false false false, 0#32)
  | .vdot4 d a b ea eb ed => some (0x5B#8, .RRR d a b ea eb ed, 0#32)
  | .fadd d a b ea eb => some (0x60#8, .RRR d a b ea eb false, 0#32)
  | .fsub d a b ea eb => some (0x61#8, .RRR d a b ea eb false, 0#32)
  | .fmul d a b ea eb => some (0x62#8, .RRR d a b ea eb false, 0#32)
  | .ffma d a b ea eb ed => some (0x63#8, .RRR d a b ea eb ed, 0#32)
  | .fmin d a b ea eb => some (0x64#8, .RRR d a b ea eb false, 0#32)
  | .fmax d a b ea eb => some (0x65#8, .RRR d a b ea eb false, 0#32)
  | .fabs d a ea => some (0x66#8, .RRR d a 0#7 ea false false, 0#32)
  | .fneg d a ea => some (0x67#8, .RRR d a 0#7 ea false false, 0#32)
  | .fcmpeq a b ea eb => some (0x68#8, .RRR 0#7 a b ea eb false, 0#32)
  | .fcmplt a b ea eb => some (0x69#8, .RRR 0#7 a b ea eb false, 0#32)
  | .fcmple a b ea eb => some (0x6A#8, .RRR 0#7 a b ea eb false, 0#32)
  | .fcmpun a b ea eb => some (0x6B#8, .RRR 0#7 a b ea eb false, 0#32)
  | .frnd d a m ea => some (0x6C#8, .X d a (0#4 ++ m) ea false false, 0#32)
  | .fclass a b ea eb => some (0x6D#8, .RRR 0#7 a b ea eb false, 0#32)
  | .fsfu d a n ea => some (0x6E#8, .X d a (0#4 ++ n) ea false false, 0#32)
  | .cvt d a k t ea ed => some (0x70#8, .X d a (k ++ t) ea ed false, 0#32)
  | .cvtn d a k j ea ed => some (0x71#8, .X d a (0#1 ++ k ++ j) ea ed false, 0#32)
  | .cvtw d a k j ea => some (0x72#8, .X d a (0#1 ++ k ++ j) ea false false, 0#32)
  | .vtag d t => some (0x73#8, .X d 0#7 (0#2 ++ t) false false false, 0#32)
  | .vgettag d a ea => some (0x74#8, .RRR d a 0#7 ea false false, 0#32)
  | .vcmpr d a ea => some (0x75#8, .RRR d a 0#7 ea false false, 0#32)
  | .vshfl d a b ea eb => some (0x78#8, .RRR d a b ea eb false, 0#32)
  | .vshfli d a m n ea => some (0x79#8, .X d a (m ++ n) ea false false, 0#32)
  | .vred d a p ea => some (0x7A#8, .X d a (0#4 ++ p) ea false false, 0#32)
  | .vscan d a p ea => some (0x7B#8, .X d a (0#4 ++ p) ea false false, 0#32)
  | .vbcast d a b ea eb => some (0x7C#8, .RRR d a b ea eb false, 0#32)
  | .vmovs d a b ea eb => some (0x7D#8, .RRR d a b ea eb false, 0#32)
  | .vmovv d a b ea eb => some (0x7E#8, .RRR d a b ea eb false, 0#32)
  | .ldB d base off ebase => some (0x80#8, .M d base off 0#3 ebase, 0#32)
  | .ldH d base off ebase => some (0x81#8, .M d base off 0#3 ebase, 0#32)
  | .ldW d base off ebase => some (0x82#8, .M d base off 0#3 ebase, 0#32)
  | .ldD d base off ebase => some (0x83#8, .M d base off 0#3 ebase, 0#32)
  | .ldQ d base off ebase => some (0x84#8, .M d base off 0#3 ebase, 0#32)
  | .stB d base off ebase => some (0x85#8, .M d base off 0#3 ebase, 0#32)
  | .stH d base off ebase => some (0x86#8, .M d base off 0#3 ebase, 0#32)
  | .stW d base off ebase => some (0x87#8, .M d base off 0#3 ebase, 0#32)
  | .stD d base off ebase => some (0x88#8, .M d base off 0#3 ebase, 0#32)
  | .stQ d base off ebase => some (0x89#8, .M d base off 0#3 ebase, 0#32)
  | .ldAcqW d base off scope ebase => some (0x8A#8, .M d base off scope ebase, 0#32)
  | .ldAcqD d base off scope ebase => some (0x8B#8, .M d base off scope ebase, 0#32)
  | .stRelW d base off scope ebase => some (0x8C#8, .M d base off scope ebase, 0#32)
  | .stRelD d base off scope ebase => some (0x8D#8, .M d base off scope ebase, 0#32)
  | .sld d base off ebase => some (0x8E#8, .M d base off 0#3 ebase, 0#32)
  | .sldD d base off ebase => some (0x8F#8, .M d base off 0#3 ebase, 0#32)
  | .sst d base off ebase => some (0x90#8, .M d base off 0#3 ebase, 0#32)
  | .sstD d base off ebase => some (0x91#8, .M d base off 0#3 ebase, 0#32)
  | .ldsW d base off ebase => some (0x92#8, .M d base off 0#3 ebase, 0#32)
  | .ldsD d base off ebase => some (0x93#8, .M d base off 0#3 ebase, 0#32)
  | .ldsQ d base off ebase => some (0x94#8, .M d base off 0#3 ebase, 0#32)
  | .stsW d base off ebase => some (0x95#8, .M d base off 0#3 ebase, 0#32)
  | .stsD d base off ebase => some (0x96#8, .M d base off 0#3 ebase, 0#32)
  | .stsQ d base off ebase => some (0x97#8, .M d base off 0#3 ebase, 0#32)
  | .atomAdd d addr b scope => some (0x98#8, .A d addr b scope, 0#32)
  | .atomMin d addr b scope => some (0x99#8, .A d addr b scope, 0#32)
  | .atomMax d addr b scope => some (0x9A#8, .A d addr b scope, 0#32)
  | .atomAnd d addr b scope => some (0x9B#8, .A d addr b scope, 0#32)
  | .atomOr d addr b scope => some (0x9C#8, .A d addr b scope, 0#32)
  | .atomXor d addr b scope => some (0x9D#8, .A d addr b scope, 0#32)
  | .atomXchg d addr b scope => some (0x9E#8, .A d addr b scope, 0#32)
  | .atomCas d addr b scope => some (0x9F#8, .A d addr b scope, 0#32)
  | .atomsAdd d addr b => some (0xA0#8, .A d addr b 0#3, 0#32)
  | .atomsMin d addr b => some (0xA1#8, .A d addr b 0#3, 0#32)
  | .atomsMax d addr b => some (0xA2#8, .A d addr b 0#3, 0#32)
  | .atomsOr d addr b => some (0xA3#8, .A d addr b 0#3, 0#32)
  | .atomsXchg d addr b => some (0xA4#8, .A d addr b 0#3, 0#32)
  | .atomsCas d addr b => some (0xA5#8, .A d addr b 0#3, 0#32)
  | .red d addr b scope => some (0xA6#8, .A d addr b scope, 0#32)
  | .fence kind s => some (0xA7#8, .S 0#7 (kind ++ s) 0#12, 0#32)
  | .prefetch d base off scope ebase => some (0xA8#8, .M d base off scope ebase, 0#32)
  | .cflush d base off scope ebase => some (0xA9#8, .M d base off scope ebase, 0#32)
  | .cinv d base off scope ebase => some (0xAA#8, .M d base off scope ebase, 0#32)
  | .icinv addr b scope => some (0xAB#8, .A 0#7 addr b scope, 0#32)
  | .monw d addr b scope => some (0xAC#8, .A d addr b scope, 0#32)
  | .pgmap d addr b => some (0xAD#8, .A d addr b 3#3, 0#32)
  | .pgshare d addr b => some (0xAE#8, .A d addr b 3#3, 0#32)
  | .pgrel d addr b => some (0xAF#8, .A d addr b 3#3, 0#32)
  | .tlbinv addr b => some (0xB0#8, .A 0#7 addr b 3#3, 0#32)
  | .binit d a ea ed => some (0xB1#8, .X d a 0#7 ea ed false, 0#32)
  | .barr d a ea => some (0xB2#8, .X d a 0#7 ea false false, 0#32)
  | .barrDrop d a ea => some (0xB2#8, .X d a 1#7 ea false false, 0#32)
  | .bexp d a ea ed => some (0xB3#8, .X d a 0#7 ea ed false, 0#32)
  | .bexpAdd d a ea ed => some (0xB3#8, .X d a 1#7 ea ed false, 0#32)
  | .bwait p kreg => some (0xB4#8, .S p 0#5 (0#5 ++ kreg), 0#32)
  | .btest d a ea => some (0xB5#8, .X d a 0#7 ea false false, 0#32)
  | .cpyt d a ea ed lit => some (0xB6#8, .RRR d a 0#7 ea false ed, lit)
  | .kick p n => some (0xB7#8, .S p 0#5 (0#7 ++ n), 0#32)
  | .rsubLd d a ea => some (0xB8#8, .X d a 0#7 ea false false, 0#32)
  | .rsubSt d a ea => some (0xB8#8, .X d a 1#7 ea false false, 0#32)
  | .rput a ea => some (0xB9#8, .X 0#7 a 0#7 ea false false, 0#32)
  | .rrel a ea => some (0xBA#8, .X 0#7 a 0#7 ea false false, 0#32)
  | .rcancel a ea => some (0xBB#8, .X 0#7 a 0#7 ea false false, 0#32)
  | .gbar => some (0xBC#8, .S 0#7 0#5 0#12, 0#32)
  | .waitc c n => some (0xBD#8, .S 0#7 (0#2 ++ c) (0#6 ++ n), 0#32)
  | .gth a ea => some (0xBE#8, .X 0#7 a 0#7 ea false false, 0#32)
  | .cpyred a ea => some (0xBF#8, .X 0#7 a 0#7 ea false false, 0#32)
  | .tdef a n ea => some (0xC0#8, .X 0#7 a (0#2 ++ n) ea false false, 0#32)
  | .tdefMeas n => some (0xC0#8, .X 0#7 0#7 (1#2 ++ n) false false false, 0#32)
  | .tinfo d w n => some (0xC1#8, .X d 0#7 (w ++ n) false false false, 0#32)
  | .ttrans hA hB => some (0xC2#8, .T false 0#4 hA hB 0#5 0#4, 0#32)
  | .tscl d a s ea => some (0xC3#8, .X d a (0#2 ++ s) ea false false, 0#32)
  | .tcvt hA hB => some (0xC4#8, .T false 0#4 hA hB 0#5 0#4, 0#32)
  | .tld d a s n ea ed => some (0xC5#8, .X d a (0#1 ++ BitVec.ofBool s ++ n) ea ed false, 0#32)
  | .tst d a s n ea ed => some (0xC6#8, .X d a (0#1 ++ BitVec.ofBool s ++ n) ea ed false, 0#32)
  | .acq chain bank => some (0xC7#8, .T chain bank 0#5 0#5 0#5 0#4, 0#32)
  | .rel chain bank => some (0xC8#8, .T chain bank 0#5 0#5 0#5 0#4, 0#32)
  | .bclr chain bank p => some (0xC9#8, .T chain bank 0#5 0#5 0#5 (0#3 ++ BitVec.ofBool p), 0#32)
  | .ldw hB => some (0xCA#8, .T false 0#4 0#5 hB 0#5 0#4, 0#32)
  | .swpw => some (0xCB#8, .T false 0#4 0#5 0#5 0#5 0#4, 0#32)
  | .mma bank hA r c g s => some (0xCC#8, .T false bank hA 0#5 (r ++ c ++ 0#1) (BitVec.ofBool g ++ s), 0#32)
  | .mmac bank hA r c g s => some (0xCD#8, .T true bank hA 0#5 (r ++ c ++ 0#1) (BitVec.ofBool g ++ s), 0#32)
  | .ard chain bank hA r c => some (0xCE#8, .T chain bank hA 0#5 (r ++ c ++ 0#1) 0#4, 0#32)
  | .awr bank hA r c p => some (0xCF#8, .T false bank hA 0#5 (r ++ c ++ 0#1) (0#3 ++ BitVec.ofBool p), 0#32)
  | .bndrd d n => some (0xD0#8, .X d 0#7 (0#3 ++ n) false false false, 0#32)
  | .bndrdStat d n => some (0xD0#8, .X d 0#7 (1#3 ++ n) false false false, 0#32)
  | .bndwr a n ea => some (0xD1#8, .X 0#7 a (0#3 ++ n) ea false false, 0#32)
  | .bndwrInv n => some (0xD1#8, .X 0#7 0#7 (1#3 ++ n) false false false, 0#32)
  | .hbnd d n => some (0xD2#8, .X d 0#7 (0#2 ++ n) false false false, 0#32)
  | .hbndMax d n => some (0xD2#8, .X d 0#7 (1#2 ++ n) false false false, 0#32)
  | .hbndRaise a n ea => some (0xD2#8, .X 0#7 a (2#2 ++ n) ea false false, 0#32)
  | .hbndSet a n ea => some (0xD2#8, .X 0#7 a (3#2 ++ n) ea false false, 0#32)
  | .mlogStat d n => some (0xD3#8, .X d 0#7 (0#3 ++ n) false false false, 0#32)
  | .mlogReissue d n => some (0xD3#8, .X d 0#7 (1#3 ++ n) false false false, 0#32)
  | .mlogSeal n => some (0xD3#8, .X 0#7 0#7 (2#3 ++ n) false false false, 0#32)
  | .rwload d a n ea ed => some (0xE0#8, .X d a (0#1 ++ n) ea ed false, 0#32)
  | .rwloadDef n => some (0xE0#8, .X 0#7 0#7 (1#1 ++ n) false false false, 0#32)
  | .rwflush => some (0xE1#8, .S 0#7 0#5 0#12, 0#32)
  | .rwstat d func fl => some (0xE2#8, .X d 0#7 func false false fl, 0#32)
  | .trcmark p k => some (0xE8#8, .S p 0#5 k, 0#32)
  | .trcctlOn => some (0xE9#8, .X 0#7 0#7 0#7 false false false, 0#32)
  | .trcctlOff => some (0xE9#8, .X 0#7 0#7 1#7 false false false, 0#32)
  | .trcctlSync => some (0xE9#8, .X 0#7 0#7 2#7 false false false, 0#32)
  | .trcctlFlush => some (0xE9#8, .X 0#7 0#7 3#7 false false false, 0#32)
  | .trcctlCfg a ea => some (0xE9#8, .X 0#7 a 4#7 ea false false, 0#32)
  | .smplctl a ea => some (0xEA#8, .X 0#7 a 0#7 ea false false, 0#32)
  | .smplctlOff => some (0xEA#8, .X 0#7 0#7 1#7 false false false, 0#32)
  | .rdpmc d func => some (0xEB#8, .X d 0#7 func false false false, 0#32)
  | .rdpmcHi d func => some (0xEB#8, .X d 0#7 func false false true, 0#32)
  | .sqkick _ => none
  | .job => none
  | .preempt => none
  | .restore => none
  | .grant => none
  | .reclaim => none
  | .create => none
  | .teardown => none
  | .attest => none
  | .attach => none
  | .halt => none
  | .resume => none
  | .freeze => none
  | .thaw => none
  | .step => none
  | .setbp => none
  | .debugIcinv => none
  | .dump => none
  | .wrreg => none
  | .toHost _ => none
  | .toDevice _ => none
  | .registerWrite _ _ _ => none
  | .l2quotaWrite _ _ => none
  | .powercapWrite _ => none
  | .budgetWrite _ _ => none
  | .hostWindowAccess _ _ _ => none
  | .i2cRead _ => none
  | .i2cWrite _ _ => none
  | .throttleAssert => none
  | .throttleRelease => none
  | .coldReset _ _ _ => none
  | .packageCurrentLimit => none
  | .thermalLimit _ _ => none
  | .laneFailure _ => none
  | .linkLoss _ => none
  | .fabricTransaction _ _ _ _ _ _ _ => none
  | .fabricTimeout _ => none
  | .hbmScrub _ _ => none
  | .channelSparing _ => none
  | .l2WayRetire _ _ _ _ => none
  | .frameRetire _ _ => none
  | .groveRetire _ => none
  | .lendingEnter _ => none
  | .carveUpdate _ => none
  | .headroomRead _ _ => none
  | .placementDecision _ => none
  | .localStoreDrain _ => none
  | .windowZeroFill _ => none
  | .eclassRefine _ _ _ => none
  | .teamComplete _ => none
  | .poolStart _ _ => none
  | .deadlockWalk _ => none
  | .watchdog _ => none
  | .monitorTimeout _ => none
  | .monitorEnd _ => none
  | .sampleTick _ _ => none
  | .sampleTag _ _ => none
  | .taggedRecord _ _ => none
  | .traceBlockWrite _ => none
  | .saveRequest _ => none
  | .preemptDeadline _ => none
  | .contextSave _ => none
  | .tableWalk _ => none
  | .shootdownAccept _ => none
  | .shootdownInvalidation _ _ => none
  | .shootdownAck _ _ => none
  | .gets _ _ _ _ => none
  | .getw _ _ _ _ => none
  | .coherenceGrant _ => none
  | .recallWords _ _ _ => none
  | .inv _ _ _ => none
  | .binv _ _ => none
  | .wb _ _ _ => none
  | .drop _ _ _ => none
  | .atomicRequest _ => none
  | .atomicReply _ => none
  | .loadReturn _ => none
  | .fetchFill _ => none
  | .engineRequestStart _ _ => none
  | .engineChunkDone _ _ => none
  | .gatherBatch _ _ => none
  | .copyReduceUpdate _ _ => none
  | .loaderFill _ => none
  | .storerDrain _ => none
  | .arrayStepStart _ => none
  | .arrayStepEnd _ => none
  | .reissue _ _ => none
  | .tileTransferDone _ => none
  | .trapEntry _ => none
  | .faultHalt _ => none
  | .containment _ => none
  | .forcedReset _ => none
  | .fabricResponse _ _ _ _ => none

/-- The encoder: the instruction word and the literal word that follows it in format RL (0 in every other format). -/
def encode (i : Instr) : Option (BitVec 32 × BitVec 32) :=
  match i.fields with
  | some (op, b, lit) => some ((op ++ b.pack : BitVec 32), lit)
  | none => none

end Sys2Proof
end

