-- ==== Sys2Proof/Config.lean ====
section
/-! DEFINITION. What an implementation fixes and what the spec leaves open. An `opaque` constant has no body: no proof can
see a value of it, so a statement holds whatever it is. -/

namespace Sys2Proof.Config

/-- Stacks of HBM (R2, R18). -/
def numStacks : Nat := 12
/-- Dies of a package (R2). -/
def dies : Nat := 4
/-- Bytes of a 64 GiB stack slot of the physical map (R18). -/
def stackSlot : Nat := 0x1000000000
/-- Assigned bytes of one stack: 732,421 frames of 64 KiB (R18). -/
def stackBytes : Nat := 0xB2D050000
/-- Base of host memory in the physical map (R18). -/
def hostBase : Nat := 0x8000000000000
/-- Top of the physical map (R18). -/
def physTop : Nat := 0x10000000000000
/-- Base of the frame descriptor table (R33, R428). -/
def fdtBase : Nat := 0xB21050000
/-- Bytes of the frame descriptor table: 192 MiB (R33). -/
def fdtBytes : Nat := 0xC000000

/-- A free byte: a value the spec calls unpredictable or does not state, by a number that is never used twice. -/
opaque freeByte : Nat → Byte
/-- A free 80-bit bank element (R234). -/
opaque freeElem : Nat → BitVec 80
/-- How far the package time has moved at a step; timing is not modelled (R291). -/
opaque ticks : Nat → Nat
/-- The f32 value that `fsfu` gives where R314 bounds the result but does not fix it, by function code and f32 input; where it
is not within the bound it is not used. -/
opaque sfu : Nat → Word → Word
/-- SHA-256 over a list of bytes (R440, R441). -/
opaque sha256 : List Byte → BitVec 256
/-- The digests that extend M0 to M3 at boot (R441). -/
opaque bootDigest : Nat → BitVec 256
/-- The fused 32-byte device seed (R442). -/
opaque deviceSeed : BitVec 256
/-- The fused digest of the vendor root's public key (R440, R442). -/
opaque vendorDigest : BitVec 256
/-- The public key that a 32-byte seed gives under SLH-DSA-SHA2-128s (FIPS 205; R440, R442). -/
opaque publicKey : BitVec 256 → BitVec 256
/-- Bytes of the 7,856-byte signature of a message under the key of a seed (R440, R443). -/
opaque signature : BitVec 256 → List Byte → Nat → Byte
/-- Bytes of the attestation report that the spec names but does not give: serial, limits, keys, signatures (R443). -/
opaque reportByte : Nat → Nat → Byte
/-- Bytes of a dump record, whose layout inside the save area the spec does not give (R395, R423). -/
opaque dumpByte : Nat → Nat → Byte
/-- Number of bytes of a dump record, by section (R395 gives upper bounds only). -/
opaque dumpSize : Nat → Nat → Nat
/-- Fused power ceiling of an island (R444). -/
opaque ceil : Nat → Word
/-- Measured supply, current, temperature of an island (R447), by island, register and step. -/
opaque islandMeter : Nat → Nat → Nat → Word
/-- DRAIN and DEADLINE of a pre-emption that the heartwood core asks for itself (R392). -/
opaque ownDrain : Nat
/-- As `ownDrain`. -/
opaque ownDeadline : Nat
/-- The fused host PA ranges: true when a device access to this host address is allowed (R444). -/
opaque hostRange : Nat → Bool
/-- The fused package range (R444). -/
opaque pkgLo : Nat
/-- The fused package range (R444). -/
opaque pkgHi : Nat

end Sys2Proof.Config
end

