-- ==== Sys2Proof/Machine/State.lean ====
section
/-! DEFINITION. The state of the package as plain data: everything INVENTORY.md lists under `## State`. The group, team
and context that act stand in `g`, `tm`, `cx`; the rest stand in lists beside them. -/

namespace Sys2Proof.Machine

/-- Trap and fault codes (R374). -/
inductive Code where
  | illegalOp | formatTag | emptyReg | misaligned | pageNotPresent | pagePermission | cow | spadBounds | bankOwner
  | illegalConvergence | boundExceeded | watchdog | deadlock | gridBarrier | breakpoint | trap | barrierOverflow
  | eccUncorrectable | fabricTimeout | cancelled | handoverViolation | engineRequest | ringProtocol | graftTable
  | saveFault
  deriving DecidableEq, Repr

/-- Group states (R245). -/
inductive GState where
  | loading | ready | issuing | stalled | blocked | frozen | stopped | ended
  deriving DecidableEq, Repr

/-- Stall and block reasons (R246). -/
inductive Reason where
  | none | empty | counter | waitc | mma | engineQueue | atomicQueue | translation | ifetch | acquire | barrier | gbar
  | handover | dependency
  deriving DecidableEq, Repr

/-- Unit statuses (R251), in the order of the table. -/
inductive UStatus where
  | done | terminated | cancelled | failed
  deriving DecidableEq, Repr

/-- What a blocked group records in the wait-for table (R198). -/
inductive Wait where
  | none
  | barrier (off : Nat) (phase : Word)
  | gbar (use : Nat)
  | empty (reg : Nat)
  | handover (leaf : Nat)
  /-- a wait on a resource of its own (R246); it ends by itself -/
  | resource
  deriving DecidableEq, Repr

/-- The kind of an access (R27, R49). -/
inductive AccKind where
  | read | write | exec | maint
  deriving DecidableEq, Repr

/-- A cached translation (R38). -/
structure TlbEntry where
  ctx : Nat
  gen : BitVec 16
  size : Nat
  vpage : Nat
  frame : Nat
  cls : BitVec 2
  home : BitVec 2
  x : Bool
  w : Bool
  cow : Bool
  shared : Bool
  deriving DecidableEq, Repr

/-- A miss waiting for the walker (R39): the context, the address, the kinds of the accesses that miss, a core of the grove
whose TLB it fills and the cores of that grove whose micro-TLBs take its result. A root streamer's miss has `root` set. -/
structure WalkReq where
  ctx : Nat
  va : DWord
  kinds : List AccKind
  core : Nat
  micro : List Nat := []
  root : Option Nat := none
  deriving DecidableEq, Repr

/-- An entry of a walk cache (R38): a table entry read at a level under a generation, at its physical address. -/
structure WalkEntry where
  ctx : Nat
  gen : BitVec 16
  level : Nat
  ea : Nat
  word : DWord
  deriving DecidableEq, Repr

/-- A trap or fault being raised: its code, its detail (R375) and, for a translation fault, address and detail word (R49). -/
structure Raise where
  code : Code
  info : BitVec 12 := 0
  opnd : BitVec 8 := 0
  va : DWord := 0
  xdet : Word := 0
  /-- the walk that ended at a COW leaf, and the translation that it enters all the same (R40) -/
  walk : Option (WalkReq × TlbEntry) := none
  deriving DecidableEq, Repr

/-- A delivery in flight to destination registers (R139): lanes `mask` of registers `d` to `d + n - 1`; `data` holds the
words register by register, 32 lanes each (one word each for scalars). -/
structure Ret where
  id : Nat := 0
  scalar : Bool
  d : Nat
  n : Nat
  mask : Word
  data : List Word
  tag : Option (BitVec 5)
  /-- counted on LD (R152) -/
  counted : Bool
  /-- the load ends with a fault, which is raised at the delivery; the register stays empty (R58, R141) -/
  fail : Option Raise := none
  deriving DecidableEq, Repr

/-- An atomic in flight (R159, R160): lanes whose replies have not been written. -/
structure AtomWait where
  id : Nat
  d : Nat
  wide : Bool
  left : Word
  tag : BitVec 5
  replies : List (Nat × DWord)
  deriving DecidableEq, Repr

/-- An armed monitor (R167). `cause` is set when an event of R168 has ended it and MONITOR_END has not yet run. -/
structure Monitor where
  pa : Nat
  va : Nat
  words : Nat
  scope : BitVec 3
  obj : Nat
  token : Nat
  timeout : Nat
  cause : Option Nat
  deriving DecidableEq, Repr

/-- The trap registers (R377, R379). -/
structure TrapRegs where
  thand : DWord := 0
  tep : DWord := 0
  tcause : Word := 0
  preq : Bool := false
  sscc : Bool := false
  sin : Bool := false
  smask : Bool := false
  inH : Bool := false
  tmask : Bool := false
  tsexec : Word := 0
  tscm : Word := 0
  tsmode : Word := 0
  deriving DecidableEq, Repr

/-- A trace block (R409), with its context and its group. -/
structure TraceBlock where
  ctx : Nat
  g : Nat
  gid : Word
  seq : BitVec 16
  final : Bool
  stop : Bool
  bytes : List Byte
  deriving DecidableEq, Repr

/-- The trace packet state of a group (R408 to R412). -/
structure TraceState where
  on : Bool := false
  seq : BitVec 16 := 0
  block : List Byte := []
  tnt : List Bool := []
  time : DWord := 0
  sinceSync : Nat := 0
  /-- packets dropped since the loss began (R469) -/
  lost : Nat := 0
  /-- the completed block the group keeps while the core's stage is full (R469) -/
  keep : Option TraceBlock := none
  /-- a stop has come since the last packet: the next one is a SYNC of reason 5 (R411) -/
  syncDue : Bool := false
  /-- the SYNC of the group's first issue is still to come (R470) -/
  startDue : Bool := false
  deriving DecidableEq, Repr

/-- A pending bound trap (R237). -/
structure BoundTrap where
  pc : DWord
  bank : Nat
  reason : Nat
  rule : Option Word := none
  deriving DecidableEq, Repr

/-- A group (R240 to R246). -/
structure Group where
  live : Bool := false
  key : Nat := 0
  ctx : Nat := 0
  team : Nat := 0
  lslot : BitVec 7 := 0
  teamIdx : BitVec 20 := 0
  grp : BitVec 5 := 0
  core : Nat := 0
  slot : Nat := 0
  age : Nat := 0
  priv : Bool := false
  vregs : Nat := 96
  sregs : Nat := 64
  wdLimit : Nat := 2 ^ 24
  coop : Bool := false
  st : GState := .ended
  stLeft : GState := .ended
  /-- the state a LOADING group goes on in once its window is ready (R245) -/
  back : GState := .ready
  reason : Reason := .none
  wait : Wait := .none
  status : Option UStatus := none
  /-- a cancel has reached the group (R253) -/
  cancelReq : Bool := false
  /-- a freeze or halt of a debugger has reached the group (R420, R421) -/
  freezeReq : Bool := false
  pc : DWord := 0
  s : SMap Word := []
  v : SMap Word := []
  tags : SMap (BitVec 5) := []
  emptyS : SMap Bool := []
  emptyV : SMap Bool := []
  exec : Word := 0xFFFFFFFF
  cmask : Word := 0
  savedexec : Word := 0
  scc : Bool := false
  mode : Word := 0x1020
  fmts : SMap Word := []
  dphase : BitVec 5 := 0
  /-- graft units in flight: the last counted operation of each, and how far its originals advance the dither phase (R211, R358) -/
  unitPhase : List (Nat × BitVec 5) := []
  chain : BitVec 2 := 0
  /-- operations of each class of R191 in issue order, the flag set on those completed; the oldest listed is outstanding (R190) -/
  cnt : SMap (List (Nat × Bool)) := []
  wdcount : Nat := 0
  tr : TrapRegs := {}
  xva : DWord := 0
  xdet : Word := 0
  efva : DWord := 0
  efdet : Word := 0
  efsrc : Word := 0
  bxdet : Word := 0
  bxpc : DWord := 0
  rwrec : Word := 0
  rwpc : DWord := 0
  clockhi : Word := 0
  pmchi : Word := 0
  trc : TraceState := {}
  part : List (Nat × Word) := []
  partOvf : Bool := false
  rets : List Ret := []
  atoms : List AtomWait := []
  /-- bound traps to be delivered, oldest first (R237) -/
  bounds : List BoundTrap := []
  /-- words of registers with an uncorrectable error (R58): 32 × r + lane for v`r`, 4,096 + n for s`n` -/
  bad : List Nat := []
  /-- a fault met after issue, raised at the next boundary (R188, R333) -/
  late : Option Raise := none
  gbarUse : Nat := 0
  gbarIn : Bool := false
  mon : Option Monitor := none
  held : List Nat := []
  /-- the next issue is not checked against breakpoints (R416) -/
  bpSkip : Bool := false
  /-- an operation the sequencer has accepted and this group waits for (R43, R413) -/
  inProgress : Bool := false
  /-- STEP is in force: stop again after one instruction (R418) -/
  stepping : Bool := false
  rule : Option Word := none
  /-- word offsets still to issue as themselves while REPLAY = 1 (R370), as PCs -/
  replay : List DWord := []
  /-- inside a graft unit: the G2 term of its last replacement (R227) -/
  term : Word := 0
  /-- inside a graft unit: what a check of the unit raised (R368) -/
  unitRaise : Option Raise := none
  /-- inside a graft unit that has begun: its checks have been made and its instructions issue without a gap (R358) -/
  forced : Bool := false
  /-- the instruction last issued (R406): its PC, its word, EXEC as it stood, the code it raised (0 for none), and whether a
  graft unit issued it -/
  lastPc : DWord := 0
  lastWord : Word := 0
  lastExec : Word := 0
  lastCode : BitVec 8 := 0
  lastGraft : Bool := false
  stopCause : Nat := 0
  deriving DecidableEq, Repr

/-- A tile handle descriptor (R326). -/
structure Handle where
  hm : Word := 0x7F800000
  hb : Word := 0x7F800000
  hgen : BitVec 16 := 0
  scoff : Word := 0
  base : Word := 0
  stride : BitVec 16 := 0
  rowsm1 : BitVec 6 := 0
  colsm1 : BitVec 10 := 0
  trans : Bool := false
  tag : BitVec 5 := 0
  /-- fk.SBLK as `tdef` found it: the handle covers a scale vector (R326, R327) -/
  sblk : Bool := false
  deriving DecidableEq, Repr

/-- An entry of a team's subscription table with its root streamer's work (R193 to R195, R202). -/
structure Sub where
  team : Nat
  handle : Nat
  stack : Nat
  g : Nat
  pc : DWord
  ring : Nat
  store : Bool
  next : DWord
  step : BitVec 64
  rows : Nat
  rowlen : Nat
  memStride : Int
  slotStride : Nat
  limited : Bool
  left : Nat
  stopReq : Bool := false
  deriving DecidableEq, Repr

/-- A team (R240, R14). -/
structure Team where
  live : Bool := false
  key : Nat := 0
  ctx : Nat := 0
  unit : Nat := 0
  lslot : BitVec 7 := 0
  idx : BitVec 20 := 0
  size : Nat := 0
  count : Nat := 1
  graph : BitVec 16 := 0
  phase : BitVec 16 := 0
  core : Nat := 0
  w : Nat := 0
  pos : Nat := 0
  win : SMap Byte := []
  handles : SMap Handle := []
  /-- the window has been zero-filled (R65) -/
  zeroed : Bool := false
  /-- the window is being restored: the team's groups are LOADING (R245) -/
  loadBack : Bool := false
  /-- words of the window with an uncorrectable error (R58) -/
  bad : List Nat := []
  termmask : Word := 0
  termstat : Word := 0
  /-- records of the current chunk not yet started, as first and one past last (R267) -/
  chunk : Option (Nat × Nat) := none
  deriving DecidableEq, Repr

/-- An engine request captured at issue, with its cursor (R180, R182, R186, R187, R201). `cls` is 0 copy, 1 gather,
2 collective. -/
structure EngReq where
  id : Nat
  cls : Nat
  core : Nat
  g : Nat
  team : Nat
  ctx : Nat
  pc : DWord
  src : DWord
  dst : DWord
  rows : Nat
  rowlen : Nat
  sstride : Int
  dstride : Int
  bar : Option Nat
  arrive : Bool
  srcsp : Bool
  dstsp : Bool
  idxOff : Nat
  op : Nat
  ety : Nat
  off : BitVec 24
  running : Bool := false
  row : Nat := 0
  byte : Nat := 0
  /-- bytes of the current chunk of a copy-reduce request updated and not yet posted -/
  acc : Nat := 0
  stopReq : Bool := false
  deriving DecidableEq, Repr

/-- A contribution of a bank's log (R230): the A tile and the plane source with their descriptors, bounds and formats, as
they stood. -/
structure Contrib where
  hA : Nat
  aH : Handle
  aFmt : Word
  hBnum : Nat
  bTeam : Nat
  bH : Handle
  bFmt : Word
  rb : Nat
  cb : Nat
  kLo : Nat
  k : Nat
  m : Nat
  n : Nat
  neg : Bool
  sigma : Int
  term : Word
  deriving DecidableEq, Repr

/-- An accumulator bank (R224, R230, R336). An unpaired bank's elements are A40 in the low 40 bits; a paired bank's are
A80. -/
structure Bank where
  elems : SMap (BitVec 80) := []
  /-- unlisted elements are the free values counted from here, not 0 (R234; assumption log 17) -/
  freeFrom : Option Nat := none
  bnd : Word := 0x7F800000
  owner : Option Nat := none
  lastCtx : Nat := 0
  paired : Bool := false
  /-- held as the partner of this bank -/
  heldFor : Option Nat := none
  pending : Bool := false
  isSealed : Bool := false
  chained : Bool := false
  logcnt : Nat := 0
  baseTile : Bool := false
  reiss : Nat := 0
  log : List Contrib := []
  /-- base tile: handle number, team, descriptor and format (R230) -/
  baseH : Option (Nat × Nat × Handle × Word) := none
  baseRect : Nat × Nat := (0, 0)
  deriving DecidableEq, Repr

/-- A stationary plane (R341): a K by N tile with its codes as raw bits and its scales. -/
structure Plane where
  k : Nat
  n : Nat
  tag : BitVec 5
  fmt : Word
  elems : List DWord
  scales : List Byte
  srcH : Nat
  srcTeam : Nat
  /-- the source handle as `ldw` found it -/
  src : Handle
  owner : Nat
  ownerCtx : Nat
  deriving DecidableEq, Repr

/-- The plane pair of a core position (R341). -/
structure PlanePair where
  front : Option Plane := none
  shadow : Option Plane := none
  deriving DecidableEq, Repr

/-- What an array step does (R347), with what it captured at issue (R349). -/
inductive StepKind where
  | bclr
  | awr (h : Handle) (hNum : Nat) (fmt : Word) (rb cb : Nat)
  /-- `mma`, and `mmac` when `chained` -/
  | mma (h : Handle) (hNum : Nat) (fmt : Word) (rb cb : Nat) (neg : Bool) (sigma : Int) (chained : Bool)
  | ard (h : Handle) (hNum : Nat) (fmt : Word) (rb cb : Nat)
  /-- `mlog.reissue` with its destination register -/
  | reissue (dst : Nat)
  deriving DecidableEq, Repr

/-- An array step queued at the arbiter (R347). -/
structure ArrayStep where
  id : Nat
  g : Nat
  team : Nat
  ctx : Nat
  pos : Nat
  pc : DWord
  bank : Nat
  chainLen : Nat
  mode : Word
  kind : StepKind
  /-- the bound test has failed and a re-issue is to run (R229, R233) -/
  wantReissue : Bool := false
  /-- the rewrite record to report when a graft unit issued the step (R368) -/
  rule : Option Word := none
  /-- the G2 term to add to the destination's bound (R227) -/
  term : Word := 0
  /-- the array of its chain at which this part of the step waits for the grant, counted from the west (R347) -/
  off : Nat := 0
  /-- a re-issue in progress: the bank as it will be committed, and the contributions repeated so far (R233) -/
  work : Option Bank := none
  rep : Nat := 0
  deriving DecidableEq, Repr

/-- An array with its arbiter (R347), by grove. -/
structure ArrayUnit where
  banks : SMap Bank := []
  planes : SMap PlanePair := []
  holder : Nat := 3
  used : Nat := 512
  started : Option ArrayStep := none
  queue : List ArrayStep := []
  deriving DecidableEq, Repr

/-- A part of a virtual range as it was translated: in this package's memory, or in another package. -/
inductive Piece where
  | loc (pa n ctx vline : Nat) (cls home : BitVec 2)
  | rem (pkg off n : Nat) (va : DWord)
  deriving DecidableEq, Repr

/-- A tile operation in flight that needs no array grant (R349). -/
inductive TileKind where
  | ld (h : Handle) (hNum : Nat) (fmt : Word) (side : Bool)
  | st (h : Handle) (hNum : Nat) (fmt : Word) (side : Bool)
  | cvt (hd hs : Handle) (d s : Nat) (fd fs : Word)
  | scl (hd hs : Handle) (d s : Nat) (fd fs : Word) (c : Word)
  | meas (h : Handle) (hNum : Nat) (fmt : Word)
  | ldw (h : Handle) (hNum : Nat) (fmt : Word)
  /-- `swpw` and `ttrans` of a graft unit, which wait in flight for earlier replacements of their unit (R358) -/
  | swp
  | trn (d s : Nat)
  deriving DecidableEq, Repr

/-- A tile operation in flight (R349). -/
structure TileOp where
  id : Nat
  g : Nat
  team : Nat
  ctx : Nat
  core : Nat
  pc : DWord
  mode : Word
  kind : TileKind
  /-- the rows and the sidecar in memory, translated at issue (R332) -/
  pieces : List Piece := []
  sideAt : List Piece := []
  rule : Option Word := none
  term : Word := 0
  /-- saved before it started: its memory is translated again at its start (R351) -/
  stale : Bool := false
  deriving DecidableEq, Repr

/-- A request to the service group of a home grove (R160). -/
structure SvcReq where
  id : Nat
  g : Nat
  lane : Nat
  op : Nat
  ty : Nat
  scope : BitVec 3
  pa : Nat
  /-- context of the translation, virtual line, CLASS and HOME of the access -/
  ctx : Nat
  vline : Nat
  cls : BitVec 2
  home : BitVec 2
  x : DWord
  y : DWord
  ret : Bool
  deriving DecidableEq, Repr

/-- An instruction cache line (R143): its physical line number, its 32 words, and those of them that came with an uncorrectable
error (R58). -/
structure ILine where
  ctx : Nat
  line : Nat
  words : List Word
  bad : Word := 0
  deriving DecidableEq, Repr

/-- A fill on its way to a core (R143): the launch that asks for it, CLASS and HOME of its page, and one past the page's last line. -/
structure FillReq where
  core : Nat
  ctx : Nat
  unit : Nat := 0
  line : Nat
  vline : Nat := 0
  cls : BitVec 2 := 0
  home : BitVec 2 := 0
  stop : Nat := 0
  deriving DecidableEq, Repr

/-- The tagged instruction of a slot (R406). -/
structure Tagged where
  time : DWord
  pc : DWord
  gid : Word
  g : Nat
  ctx : Nat
  exec : Word
  word : Word
  code : BitVec 8
  fate : BitVec 2
  graft : Bool
  mlvl : BitVec 4
  deriving DecidableEq, Repr

/-- A core (R62, R68, R71, R403, R406). -/
structure Core where
  lend : Bool := true
  level : Nat := 2
  spways : Nat := 0
  defer : Nat := 0
  shadowHits : Nat := 0
  lastwayHits : Nat := 0
  /-- the shadow way of tags: the line last evicted from each sampling set (R68) -/
  shadow : SMap Nat := []
  utlb : List TlbEntry := []
  icache : List ILine := []
  current : SMap (Option Nat) := []
  lfsr : SMap (BitVec 16) := []
  /-- tagging countdown of a slot plus 1; 0 where it has still to be loaded (R406) -/
  countdown : SMap Nat := []
  tagged : SMap (Option Tagged) := []
  stage : List TraceBlock := []
  /-- groups that keep a block, in the order they completed it (R469) -/
  keepers : List Nat := []
  deriving DecidableEq, Repr

/-- A word of a line in a grove's L1 (R82). -/
structure L1Word where
  valid : Bool := false
  granted : Bool := false
  dirty : BitVec 4 := 0
  deriving DecidableEq, Repr

/-- A directory record (R86). -/
structure DirRec where
  grove : Nat
  w : Bool
  mask : Word
  deriving DecidableEq, Repr

/-- A directory entry (R86). -/
inductive DirEntry where
  | precise (recs : List DirRec)
  | broadcast (dies : BitVec 4) (union : Word)
  deriving DecidableEq, Repr

/-- A line held in a grove's L1, in a way of its slice (R60, R62). -/
structure L1Line where
  line : Nat
  way : Nat
  deriving DecidableEq, Repr

/-- A store of a group that stands in its grove's L1 and has not been performed (R84): its bytes within one line, and the
instruction that counts it. -/
structure PendStore where
  grove : Nat
  g : Nat
  insn : Nat
  pa : Nat
  bytes : List Byte
  ctx : Nat
  vline : Nat
  cls : BitVec 2
  home : BitVec 2
  deriving DecidableEq, Repr

/-- A line resident in an L2 slice (R56, R75): its valid and dirty words. -/
structure L2Line where
  line : Nat
  ctx : Nat
  vline : Nat
  cls : BitVec 2
  pinned : Bool
  way : Nat
  valid : Word := 0xFFFFFFFF
  dirty : Word := 0
  deriving DecidableEq, Repr

/-- A grove (R38, R81, R160). -/
structure Grove where
  gtlb : List TlbEntry := []
  /-- generation of the last invalidation processed, per context (R41) -/
  gens : SMap (BitVec 16) := []
  /-- words of lines held: key is line × 32 + word -/
  l1 : SMap L1Word := []
  /-- the lines held, least recently used first (R61) -/
  lru : List L1Line := []
  /-- pinned HOME 0b01 frames with their context and virtual page (R29, R30) -/
  pins : List (Nat × Nat × Nat) := []
  svcq : List SvcReq := []
  /-- groups with armed monitors, oldest first (R168) -/
  mons : List Nat := []
  fails : Nat := 0
  deriving DecidableEq, Repr

/-- A die (R72, R86, R277). -/
structure Die where
  l2quota : DWord := 0x1000100010001000
  quotaRefused : Bool := false
  walkGens : SMap (BitVec 16) := []
  walkCache : List WalkEntry := []
  dir : SMap (Option DirEntry) := []
  l2 : SMap (List L2Line) := []
  retiredWays : SMap (List Nat) := []
  /-- physical grove of each logical grove, 34 for none (R277) -/
  groves : SMap Nat := []
  bad : List Nat := []
  deriving DecidableEq, Repr

/-- An island (R447, R279). -/
structure Island where
  volt : Word := 600
  cur : Word := 0
  temp : Word := 0
  energy : DWord := 0
  budget : Word := 0
  hostBudget : Word := 0
  step : Nat := 0
  h : Int := 0
  lowered : Bool := false
  /-- reads of R279 since the island was last lowered, up to 11 -/
  since : Nat := 11
  hot : Bool := false
  deriving DecidableEq, Repr

/-- A dependence edge (R257). -/
structure Edge where
  prod : Nat
  range : Bool
  stride : Nat
  width : Nat
  offset : Int
  deriving DecidableEq, Repr

/-- The launch, card or pool fields that placement uses (R254, R266, R269). `kind` is 0 launch, 1 card, 2 pool. -/
structure LaunchDef where
  kind : Nat := 0
  entry : DWord := 0
  teams : Nat := 1
  groups : Nat := 1
  vregs : Nat := 1
  sregs : Nat := 8
  spmin : Nat := 0
  spmax : Nat := 0
  coop : Bool := false
  idem : Bool := false
  terminate : Bool := false
  retry : Nat := 0
  eclass : Nat := 0
  prio : Nat := 0
  wdLimit : Nat := 2 ^ 24
  trace : Bool := false
  args : List Word := []
  fmts : SMap Word := []
  recBase : DWord := 0
  nrec : Nat := 0
  minChunk : Nat := 1
  descVA : DWord := 0
  cap : Nat := 0
  fsBase : DWord := 0
  tcbBase : DWord := 0
  deriving DecidableEq, Repr

/-- A unit: launch, batch card or task pool of a job (R256 to R273). -/
structure UnitRec where
  key : Nat
  job : Nat
  phase : Nat
  graph : Nat
  idx : Nat
  def_ : LaunchDef
  edges : List Edge := []
  slot : Option (BitVec 7) := none
  /-- ERROR of the COMPLETED entry (R499) -/
  err : Nat := 0
  complete : Option UStatus := none
  status : UStatus := .done
  cancelled : Bool := false
  /-- teams or records that have ended, each with its status; relaunches used (a COOP launch counts under key 0) -/
  ended : SMap (Option UStatus) := []
  retries : SMap Nat := []
  /-- a card's chunks whose participating team is to be placed again after a relaunch, as first and one past last (R387) -/
  replace : List (Nat × Nat) := []
  cursor : Nat := 0
  /-- records of a card to end CANCELLED when a chunk reaches them (R293) -/
  cancelRecs : List Nat := []
  participants : Nat := 0
  started : Bool := false
  live : Nat := 0
  readyQ : List Nat := []
  succSkip : Word := 0
  eclassNow : Nat := 0
  refined : Bool := false
  ganged : Bool := false
  /-- waiting teams for which a die has counted a scratchpad deferral: the die and the team, record or TCB (R67) -/
  deferred : List (Nat × Nat) := []
  deriving DecidableEq, Repr

/-- A job (R256, R431). -/
structure JobRec where
  seq : Nat
  tag : DWord
  priv : Bool
  phases : Nat
  phase : Nat := 0
  graphPhase : List Nat := []
  graphDone : List Nat := []
  complete : Option UStatus := none
  deriving DecidableEq, Repr

/-- A stop record (R384). -/
structure StopRec where
  exitstat : Word := 0
  seq : Word := 0
  time : DWord := 0
  rwrec : Word := 0
  efsrc : Word := 0
  agent : BitVec 3 := 0
  reason : BitVec 5 := 0
  emptyreg : BitVec 8 := 0xFF
  pend : Bool := false
  pbank : BitVec 4 := 0
  va : DWord := 0
  detail : Word := 0
  pc : DWord := 0
  cmask : Word := 0
  exec : Word := 0
  gid : Word := 0
  ctx : BitVec 16 := 0
  code : BitVec 8 := 0
  cause : BitVec 4 := 0
  state : BitVec 4 := 0
  deriving DecidableEq, Repr

/-- A fault waiting for its halt and containment (R382 to R385). -/
structure PendFault where
  g : Nat
  raise : Raise
  pc : DWord
  deriving DecidableEq, Repr

/-- Where the halt of a context stands (R383, R420). -/
inductive Halt where
  | lowered
  /-- the line is raised and not every party has stopped -/
  | raised
  /-- every stop record is in -/
  | stopped
  deriving DecidableEq, Repr

/-- A pre-emption in progress (R392). -/
inductive Preempt where
  | none
  | draining (drain deadline : Nat)
  | saving (drain deadline : Nat)
  | saved
  | restoring
  deriving DecidableEq, Repr

/-- An address breakpoint (R402, R416). -/
structure Bp where
  va : DWord := 0
  en : Bool := false
  act : Bool := false
  deriving DecidableEq, Repr

/-- The save area's content (R395) as data: the records whose bit layout the spec does not give. -/
structure SaveArea where
  groups : List Group
  teams : List Team
  engs : List EngReq
  subs : List Sub
  tops : List TileOp
  steps : List (Nat × ArrayStep)
  banks : List (Nat × Nat × Bank)
  planes : List (Nat × Nat × PlanePair)
  /-- the header's PTROOT and pre-emption times -/
  ptroot : DWord
  times : Nat × Nat
  deriving DecidableEq, Repr

/-- A context (R4, R20, R36, R438, R432). -/
structure Ctx where
  live : Bool := false
  num : Nat := 0
  gen : BitVec 16 := 0
  base : BitVec 36 := 0
  reach : Word := 0
  jobTag : BitVec 16 := 0
  partGroves : Word := 0
  partDies : BitVec 4 := 0
  partAll : Bool := false
  flHead : SMap Word := []
  flCount : SMap Word := []
  graft : SMap (List Word) := []
  matchCnt : SMap Word := []
  graftCnt : SMap Word := []
  smpctl : Word := 0xC00
  trccfg : Word := 12
  attach : Bool := false
  bkact : Bool := false
  bps : SMap Bp := []
  smpring : DWord := 0
  trcring : DWord := 0
  stops : List StopRec := []
  stopSeq : Word := 0
  jobs : List JobRec := []
  units : List UnitRec := []
  halt : Halt := .lowered
  haltCause : Nat := 0
  /-- SEQ of the first stop record of the halt in progress -/
  haltSeq : Word := 0
  faults : List PendFault := []
  debugHalt : Bool := false
  /-- CAUSE of a debug halt or a save request that is on its way to the partition: 3 or 2 (R392, R420) -/
  cut : Option Nat := none
  /-- breakpoints that have asked for the debug halt on its way, each with its group (R417) -/
  breaks : List PendFault := []
  preempt : Preempt := .none
  /-- the DEADLINE of the request has passed (R392) -/
  overdue : Bool := false
  /-- the heartwood core itself has asked for the pre-emption (R392) -/
  hwOwn : Bool := false
  saved : Option SaveArea := none
  tag : DWord := 0
  /-- the groups the last deadlock walk found, each with its entry and PHASE, ARR and BYTES of its object (R399) -/
  walkSnap : Option (List (Nat × Wait × Nat)) := none
  pmc : SMap DWord := []
  /-- the first of the reserved frames of its stop-record ring and its dump fallback area (R18, R384, R423), and those of its
  save area (R395) -/
  area : Option Nat := none
  savedFrames : List Nat := []
  deriving DecidableEq, Repr

/-- A handover slot (R94). -/
structure HoSlot where
  addr : DWord := 0
  ctl : DWord := 0
  code : BitVec 4 := 0
  failidx : BitVec 16 := 0
  order : Nat := 0
  /-- the command has put its leaves in RELEASING or ACQUIRING (R97 step 1); their addresses and levels -/
  begun : Bool := false
  leaves : List (Nat × Nat) := []
  deriving DecidableEq, Repr

/-- A fabric transaction (R436). `va` is the virtual address it stands for; `resp` holds the target's answer: a code (0 for
success), a detail word and the data. -/
structure FabTxn where
  id : Nat
  owner : Nat
  write : Bool
  op : Nat
  pkg : Nat
  off : Nat
  tag : BitVec 16
  size : Nat
  data : List Byte
  va : DWord := 0
  sent : Bool := false
  resp : Option (BitVec 8 × Word × List Byte) := none
  deriving DecidableEq, Repr

/-- A message of a homing slice to a grove that has not been acknowledged (R87). -/
inductive CohKind where
  | recall | inv | binv
  deriving DecidableEq, Repr

/-- A request of an L1 slice at the homing slice of its line (R83, R84, R87): GETS, or GETW when `write`. `g` is the group
whose load waits for it, 0 for none. -/
structure CohReq where
  id : Nat
  grove : Nat
  line : Nat
  first : Nat
  n : Nat
  write : Bool
  cls : BitVec 2
  pinned : Bool
  ctx : Nat
  vline : Nat
  g : Nat
  /-- the homing slice has taken the request and sent its messages -/
  taken : Bool := false
  /-- the entry switches to broadcast mode when the messages have been acknowledged (R88) -/
  toBcast : Bool := false
  msgs : List (Nat × CohKind × Word) := []
  deriving DecidableEq, Repr

/-- A shootdown at the sequencer (R43). -/
structure Shoot where
  ctx : Nat
  g : Option Nat
  lo : Nat
  hi : Nat
  accepted : Bool := false
  gen : BitVec 16 := 0
  /-- targets that have not processed the invalidation; then those that have not acknowledged -/
  toInv : List Nat := []
  toAck : List Nat := []
  /-- the handover slot whose command submitted it (R97 step 2) -/
  ho : Option Nat := none
  deriving DecidableEq, Repr

/-- The package (R2, R427 to R448). -/
structure Dev where
  devstat : BitVec 2 := 0
  failStep : BitVec 8 := 0
  sqbase : DWord := 0
  sqsize : Word := 16
  sqhead : Word := 0
  sqtail : Word := 0
  jbase : DWord := 0
  jseq : Nat := 1
  winbase : DWord := 0
  pkgid : BitVec 13 := 0
  powercap : DWord := 0
  meas : SMap (BitVec 256) := []
  islands : SMap Island := []
  ho : SMap HoSlot := []
  hoOrder : Nat := 0
  msix : List (BitVec 6) := []
  time : DWord := 0
  throttle : Bool := false
  hostRead : DWord := 0
  i2c : Option Word := none
  i2cNack : Bool := false
  ports : SMap Nat := []
  portsDown : List Nat := []
  sparedCh : List Nat := []
  rowFixes : SMap Nat := []
  report : Option Nat := none
  /-- frames that hold an uncorrectable word and could not be retired (R446) -/
  poisoned : List Nat := []
  /-- words of memory, by address / 4, whose only copy holds an uncorrectable error (R58) -/
  badWords : List Nat := []
  /-- the seed of the attestation key, and reads of the device seed are blocked (R440 step 2, R442) -/
  attSeed : BitVec 256 := 0
  seedBlocked : Bool := false
  /-- `.fmt` values of the code objects that the host has loaded: context, entry PC, values by format register (R133, R146) -/
  kernels : List (Nat × DWord × SMap Word) := []
  /-- the group a STEP command is waiting for (R418) -/
  stepKey : Option Nat := none
  deriving DecidableEq, Repr

/-- A soft error that the outside brings (R58), by what it strikes. -/
inductive SoftErr where
  | none
  /-- a corrected error in state of a core, while a group of a context is resident there -/
  | corrected (ctx core : Nat)
  /-- parity of an instruction-cache line -/
  | icache (core ctx line : Nat)
  /-- a word of memory, by address / 4, in a grove's L1 slice -/
  | l1 (grove word : Nat)
  /-- a word in its homing L2 slice -/
  | l2 (word : Nat)
  | hbm (word : Nat)
  | reg (g : Nat) (scalar : Bool) (n lane : Nat)
  | spad (team word : Nat)
  deriving DecidableEq, Repr

/-- The whole state. -/
structure State where
  g : Group
  others : List Group
  tm : Team
  teams : List Team
  cx : Ctx
  ctxs : List Ctx
  mem : List Host.Cell
  cores : SMap Core
  groves : SMap Grove
  arrays : SMap ArrayUnit
  dies : SMap Die
  engs : List EngReq
  subs : List Sub
  tops : List TileOp
  walks : List WalkReq
  fills : List FillReq
  shoots : List Shoot
  /-- L1 requests on their way to the homing slices, in the order they reach them (R87) -/
  coh : List CohReq
  /-- stores that wait for a grant, in the order of their instructions (R84) -/
  pend : List PendStore
  rootTlb : SMap (List TlbEntry)
  /-- generation of the last invalidation processed by a root TLB, key stack × 65,536 + context (R41) -/
  rootGens : SMap (BitVec 16)
  fab : List FabTxn
  /-- answers this package has given as the target of other packages' transactions (R436) -/
  fabOut : List FabTxn
  dev : Dev
  /-- the next key of a group, team, unit, request or operation -/
  fresh : Nat
  /-- the model's own: how many free values have been taken -/
  freeCtr : Nat
  /-- the model's own: steps taken so far, for the package time -/
  steps : Nat
  /-- the model's own: which enabled step comes next, by position (assumption log 4) -/
  schedule : List Nat
  /-- the model's own: external events still to come, in order (assumption log 4) -/
  inputs : List Instr
  /-- the model's own: soft errors still to come, one for each step (assumption log 4) -/
  soft : List SoftErr
  deriving DecidableEq, Repr

/-- Reasons for which a step is not defined. -/
inductive Fault where
  /-- A host window access (HOST_WINDOW_ACCESS) reaches a physical address that R18 leaves unassigned; the spec says nothing
  of it. Safe: nothing is claimed of what follows. -/
  | unassignedPhysical (pa : Nat)
  deriving DecidableEq, Repr

/-- Reasons for which an instruction has no meaning. -/
inductive Refusal where
  /-- The instruction has no meaning in this model yet; raised by an arm of exec alone. Safe: nothing is claimed. -/
  | notModelled (mnemonic : String)
  deriving DecidableEq, Repr

/-- The package right after reset (R428, R71, R224, R336): no context, no group, memory as empty HBM. -/
def State.reset : State where
  g := {}
  others := []
  tm := {}
  teams := []
  cx := {}
  ctxs := []
  mem := []
  cores := []
  groves := []
  arrays := []
  dies := []
  engs := []
  subs := []
  tops := []
  walks := []
  fills := []
  shoots := []
  coh := []
  pend := []
  rootTlb := []
  rootGens := []
  fab := []
  fabOut := []
  dev := {}
  fresh := 1
  freeCtr := 0
  steps := 0
  schedule := []
  inputs := []
  soft := []

end Sys2Proof.Machine
end

