-- ==== Sys2Proof/Machine/Store.lean ====
section
/-! DEFINITION. Sparse tables and the byte memory: canonical lists of key and value pairs (R18, R33). -/

namespace Sys2Proof

namespace SMap

variable {α : Type}

/-- The value at a key; `d` where the table lists none. -/
def get (d : α) : SMap α → Nat → α
  | [], _ => d
  | (k', v) :: t, k => if k' = k then v else get d t k

/-- The table without a key. -/
def erase : SMap α → Nat → SMap α
  | [], _ => []
  | (k', v) :: t, k => if k' = k then erase t k else (k', v) :: erase t k

/-- A pair put at its place in a table that does not list its key. -/
def insert (k : Nat) (v : α) : SMap α → SMap α
  | [] => [(k, v)]
  | (k', v') :: t => if k < k' then (k, v) :: (k', v') :: t else (k', v') :: insert k v t

/-- The table with a value at a key; nothing is listed when the value is the default `d`. -/
def set [DecidableEq α] (d : α) (m : SMap α) (k : Nat) (v : α) : SMap α :=
  if v = d then erase m k else insert k v (erase m k)

/-- The value at a key changed by `f`. -/
def modify [DecidableEq α] (d : α) (m : SMap α) (k : Nat) (f : α → α) : SMap α :=
  set d m k (f (get d m k))

/-- Keys rise strictly. -/
def sorted : SMap α → Bool
  | [] => true
  | [_] => true
  | (k, _) :: (k', v') :: t => decide (k < k') && sorted ((k', v') :: t)

end SMap

namespace Machine

/-- An element put before the first that does not precede it. -/
def putIn {α : Type} (le : α → α → Bool) (x : α) : List α → List α
  | [] => [x]
  | y :: t => if le x y then x :: y :: t else y :: putIn le x t

/-- A list in the order of `le`; equals keep their order. -/
def orderBy {α : Type} (l : List α) (le : α → α → Bool) : List α := l.foldr (putIn le) []

/-- What a byte of memory that nothing has written reads as (assumption log 1): 0, and in the frame descriptor table the
reset values of R33: LINK 0xFFFF_FFFF, and STATE RESERVED for the frames of the table itself (R18). -/
def memDefault (pa : Nat) : Byte :=
  if Config.fdtBase ≤ pa ∧ pa < Config.fdtBase + Config.fdtBytes then
    let o := (pa - Config.fdtBase) % 16
    let f := (pa - Config.fdtBase) / 16
    if 12 ≤ o then 0xFF
    else if o = 0 ∧ Config.fdtBase / 65536 ≤ f ∧ f < (Config.fdtBase + Config.fdtBytes) / 65536 then 3
    else 0
  else 0

/-- The physical address lies in the assigned range of one HBM stack (R18). -/
def inHbm (pa : Nat) : Bool :=
  pa / Config.stackSlot < Config.numStacks && pa % Config.stackSlot < Config.stackBytes

/-- The physical address lies in host memory (R18). -/
def inHost (pa : Nat) : Bool := Config.hostBase ≤ pa && pa < Config.physTop

/-- The physical address is assigned (R18). -/
def assigned (pa : Nat) : Bool := inHbm pa || inHost pa

/-- One byte of memory. -/
def readByte (m : List Host.Cell) (pa : Nat) : Byte := SMap.get (memDefault pa) m pa

/-- Memory with one byte written. -/
def writeByte (m : List Host.Cell) (pa : Nat) (v : Byte) : List Host.Cell := SMap.set (memDefault pa) m pa v

/-- `n` bytes from an address upwards. -/
def readBytes (m : List Host.Cell) (pa : Nat) : Nat → List Byte
  | 0 => []
  | n + 1 => readByte m pa :: readBytes m (pa + 1) n

/-- Bytes written from an address upwards. -/
def writeBytes (m : List Host.Cell) (pa : Nat) : List Byte → List Host.Cell
  | [] => m
  | b :: t => writeBytes (writeByte m pa b) (pa + 1) t

/-- Little-endian value of bytes (R6). -/
def natOfBytes : List Byte → Nat
  | [] => 0
  | b :: t => b.toNat + 256 * natOfBytes t

/-- The low `n` bytes of a value, little-endian (R6). -/
def bytesOfNat : Nat → Nat → List Byte
  | 0, _ => []
  | n + 1, x => BitVec.ofNat 8 x :: bytesOfNat n (x / 256)

/-- A little-endian value of `n` bytes of memory. -/
def readNat (m : List Host.Cell) (pa n : Nat) : Nat := natOfBytes (readBytes m pa n)

/-- An aligned 8-byte word of memory (`pread` of R24). -/
def readD (m : List Host.Cell) (pa : Nat) : DWord := BitVec.ofNat 64 (readNat m pa 8)

/-- A value of `n` bytes written. -/
def writeNat (m : List Host.Cell) (pa n x : Nat) : List Host.Cell := writeBytes m pa (bytesOfNat n x)

/-- The canonical form of memory: addresses rise strictly and no entry equals what an unlisted address reads as. -/
def memWf (m : List Host.Cell) : Bool := SMap.sorted m && m.all fun c => c.2 != memDefault c.1

/-- A byte of a window (R14); a byte that nothing has written since the zero-fill is 0 (R65). -/
def winByte (w : SMap Byte) (off : Nat) : Byte := SMap.get 0 w off

/-- `n` bytes of a window. -/
def winBytes (w : SMap Byte) (off : Nat) : Nat → List Byte
  | 0 => []
  | n + 1 => winByte w off :: winBytes w (off + 1) n

/-- Bytes written to a window. -/
def winWrite (w : SMap Byte) (off : Nat) : List Byte → SMap Byte
  | [] => w
  | b :: t => winWrite (SMap.set 0 w off b) (off + 1) t

/-- A little-endian value of `n` bytes of a window. -/
def winNat (w : SMap Byte) (off n : Nat) : Nat := natOfBytes (winBytes w off n)

/-- Bit `i` of a 32-bit mask. -/
def laneBit (m : Word) (i : Nat) : Bool := m.getLsbD i

/-- A mask with bit `i` set to `b`. -/
def setBit (m : Word) (i : Nat) (b : Bool) : Word :=
  let one : Word := BitVec.ofNat 32 (2 ^ i)
  if b then m ||| one else m &&& ~~~one

/-- `sext(x, n)` of R9 as an integer. -/
def sextN (x n : Nat) : Int :=
  let y := x % 2 ^ n
  if n ≠ 0 ∧ 2 ^ (n - 1) ≤ y then (y : Int) - (2 ^ n : Nat) else y

/-- The low `w` bits of an integer (R8). -/
def lowBits (w : Nat) (x : Int) : Nat := (x % (2 ^ w : Nat)).toNat

/-- Number of 1 bits among the low `n` bits. -/
def popcount : Nat → Nat → Nat
  | 0, _ => 0
  | n + 1, x => x % 2 + popcount n (x / 2)

/-- Number of leading 0 bits of a `w`-bit value. -/
def clz (w x : Nat) : Nat :=
  if x = 0 then w else w - 1 - x.log2

/-- `List.range` from `a`, `n` long. -/
def rangeFrom (a n : Nat) : List Nat := (List.range n).map (a + ·)

/-- The list with position `i` changed by `f`. -/
def modifyAt {α : Type} (f : α → α) : List α → Nat → List α
  | [], _ => []
  | a :: t, 0 => f a :: t
  | a :: t, n + 1 => a :: modifyAt f t n

/-- The first element that meets `p`, and the list without it. -/
def pickOut {α : Type} (p : α → Bool) : List α → Option (α × List α)
  | [] => none
  | a :: t =>
    if p a then some (a, t)
    else
      match pickOut p t with
      | some (x, r) => some (x, a :: r)
      | none => none

end Machine
end Sys2Proof
end

