-- ==== Sys2Proof/Machine/Access.lean ====
section
/-! DEFINITION. Reading and writing the parts of the state: registers with their one home each, the focused group, team
and context, and the tables of cores, groves, arrays and dies. -/

namespace Sys2Proof.Machine

/-! ### Registers of a group -/

/-- s`n` (R126). -/
def Group.sreg (g : Group) (n : Nat) : Word := SMap.get 0 g.s n
/-- s`n` written; an error the word had is gone (R58). -/
def Group.setS (g : Group) (n : Nat) (x : Word) : Group :=
  { g with s := SMap.set 0 g.s n x, bad := g.bad.filter fun k => k != 4096 + n }
/-- The pair s`n`:s`n+1`, bits [31:0] in the even register (R127). -/
def Group.spair (g : Group) (n : Nat) : DWord := g.sreg (n + 1) ++ g.sreg n
/-- A pair of scalars written. -/
def Group.setSpair (g : Group) (n : Nat) (x : DWord) : Group :=
  (g.setS n (x.extractLsb' 0 32)).setS (n + 1) (x.extractLsb' 32 32)
/-- Lane `l` of v`r`. -/
def Group.lane (g : Group) (r l : Nat) : Word := SMap.get 0 g.v (r * 32 + l)
/-- Lane `l` of v`r` written; an error the word had is gone (R58). -/
def Group.setLane (g : Group) (r l : Nat) (x : Word) : Group :=
  { g with v := SMap.set 0 g.v (r * 32 + l) x, bad := g.bad.filter fun k => k != r * 32 + l }
/-- The format tag of v`r` (R135). -/
def Group.tag (g : Group) (r : Nat) : BitVec 5 := SMap.get 0 g.tags r
/-- The tag of v`r` written. -/
def Group.setTag (g : Group) (r : Nat) (t : BitVec 5) : Group := { g with tags := SMap.set 0 g.tags r t }
/-- A register of V space read in a lane: v`c`, or the broadcast scalar s`c-96` (R126). -/
def Group.vsrc (g : Group) (c l : Nat) : Word := if c < 96 then g.lane c l else g.sreg (c - 96)
/-- A pair of V space read in a lane (R127). -/
def Group.vpair (g : Group) (c l : Nat) : DWord := g.vsrc (c + 1) l ++ g.vsrc c l
/-- Format register f`k` (R133). -/
def Group.fmt (g : Group) (k : Nat) : Word := SMap.get 0 g.fmts k
/-- f`k` written. -/
def Group.setFmt (g : Group) (k : Nat) (x : Word) : Group := { g with fmts := SMap.set 0 g.fmts k x }
/-- The full/empty bit of a scalar register: true when empty (R139). -/
def Group.isEmptyS (g : Group) (n : Nat) : Bool := SMap.get false g.emptyS n
/-- The full/empty bit of a vector register: true when empty (R139). -/
def Group.isEmptyV (g : Group) (n : Nat) : Bool := SMap.get false g.emptyV n
/-- The full/empty bit of a register written. -/
def Group.setEmpty (g : Group) (scalar : Bool) (n : Nat) (b : Bool) : Group :=
  if scalar then { g with emptyS := SMap.set false g.emptyS n b } else { g with emptyV := SMap.set false g.emptyV n b }
/-- The full/empty bits of `cnt` registers from `n` written. -/
def Group.setEmptyN (g : Group) (scalar : Bool) (n : Nat) (b : Bool) : Nat → Group
  | 0 => g
  | k + 1 => (g.setEmptyN scalar n b k).setEmpty scalar (n + k) b
/-- A register counts as held by the group: v0 to v(VREGS-1), s0 to s(SREGS-1) and s63 (R242). -/
def Group.holdsS (g : Group) (n : Nat) : Bool := n < g.sregs || n == 63
/-- As `holdsS`, vector registers. -/
def Group.holdsV (g : Group) (n : Nat) : Bool := n < g.vregs

/-! ### MODE (R131) -/

/-- MODE.TYPE -/
def Group.type (g : Group) : Nat := (g.mode.extractLsb' 2 5).toNat
/-- MODE.GUARD -/
def Group.guard (g : Group) : Nat := (g.mode.extractLsb' 0 2).toNat
/-- MODE.RND -/
def Group.rnd (g : Group) : Nat := (g.mode.extractLsb' 7 3).toNat
/-- MODE.FTZ -/
def Group.ftz (g : Group) : Bool := g.mode.getLsbD 10
/-- MODE.SAT -/
def Group.sat (g : Group) : Bool := g.mode.getLsbD 11
/-- MODE.FMTTRAP -/
def Group.fmtTrap (g : Group) : Bool := g.mode.getLsbD 22
/-- MODE.DFMT -/
def Group.dfmt (g : Group) : Nat := (g.mode.extractLsb' 24 4).toNat

/-- The lanes an instruction acts on: EXEC narrowed by the guard (R8, R243). -/
def Group.active (g : Group) : Word :=
  match g.guard with
  | 0 => g.exec
  | 1 => g.exec &&& g.cmask
  | _ => g.exec &&& ~~~g.cmask

/-- Every lane is active (R244). -/
def Group.allActive (g : Group) : Bool := g.active == 0xFFFFFFFF

/-- The lanes of a mask, ascending (R8). -/
def lanesOf (m : Word) : List Nat := (List.range 32).filter (laneBit m)

/-- %gid (R240). -/
def Group.gid (g : Group) : Word := g.lslot ++ g.teamIdx ++ g.grp

/-- The operations of a class of R191, in issue order from the oldest outstanding one. -/
def Group.ops (g : Group) (cls : Nat) : List (Nat × Bool) := SMap.get [] g.cnt cls
/-- An outstanding counter (R190). -/
def Group.count (g : Group) (cls : Nat) : Nat := ((g.ops cls).filter (!·.2)).length
/-- An operation issued. -/
def Group.addOp (g : Group) (cls id : Nat) : Group := { g with cnt := SMap.set [] g.cnt cls (g.ops cls ++ [(id, false)]) }
/-- An operation completed. -/
def Group.doneOp (g : Group) (cls id : Nat) : Group :=
  let l := ((g.ops cls).map fun x => if x.1 == id then (x.1, true) else x).dropWhile (·.2)
  { g with cnt := SMap.set [] g.cnt cls l }
/-- The operations of a class older than its `n` most recent have completed (R191). -/
def Group.settled (g : Group) (cls n : Nat) : Bool := ((g.ops cls).take ((g.ops cls).length - n)).all (·.2)

/-- Values written to lanes of v`d` in the lanes of a mask, highest first; other lanes keep theirs (R243). -/
def Group.writeLanes (g : Group) (d : Nat) (m : Word) (f : Nat → Word) : Nat → Group
  | 0 => g
  | n + 1 =>
    let g' := g.writeLanes d m f n
    if laneBit m n then g'.setLane d n (f n) else g'

/-- v`d` written with its tag in the lanes of a mask; nothing when the mask is empty (R243, R299). -/
def Group.writeV (g : Group) (d : Nat) (m : Word) (f : Nat → Word) (t : BitVec 5) : Group :=
  if m = 0 then g else (g.writeLanes d m f 32).setTag d t

/-- A pair v`d`:v`d+1` written with its tags in the lanes of a mask. -/
def Group.writeVpair (g : Group) (d : Nat) (m : Word) (f : Nat → DWord) (t : BitVec 5) : Group :=
  (g.writeV d m (fun l => (f l).extractLsb' 0 32) t).writeV (d + 1) m (fun l => (f l).extractLsb' 32 32) t

/-! ### Parts of the state -/

/-- The focused group changed. -/
def State.modG (s : State) (f : Group → Group) : State := { s with g := f s.g }
/-- The focused team changed. -/
def State.modTm (s : State) (f : Team → Team) : State := { s with tm := f s.tm }
/-- The focused context changed. -/
def State.modCx (s : State) (f : Ctx → Ctx) : State := { s with cx := f s.cx }
/-- Every group that exists. -/
def State.groups (s : State) : List Group := (s.g :: s.others).filter (·.live)
/-- Every team that exists. -/
def State.allTeams (s : State) : List Team := (s.tm :: s.teams).filter (·.live)
/-- Every context that exists. -/
def State.allCtxs (s : State) : List Ctx := (s.cx :: s.ctxs).filter (·.live)
/-- Every group changed. -/
def State.mapGroups (s : State) (f : Group → Group) : State := { s with g := f s.g, others := s.others.map f }
/-- Every team changed. -/
def State.mapTeams (s : State) (f : Team → Team) : State := { s with tm := f s.tm, teams := s.teams.map f }
/-- Every context changed. -/
def State.mapCtxs (s : State) (f : Ctx → Ctx) : State := { s with cx := f s.cx, ctxs := s.ctxs.map f }
/-- The group of a key changed. -/
def State.modGroup (s : State) (k : Nat) (f : Group → Group) : State :=
  s.mapGroups fun g => if g.live && g.key == k then f g else g
/-- The team of a key changed. -/
def State.modTeam (s : State) (k : Nat) (f : Team → Team) : State :=
  s.mapTeams fun t => if t.live && t.key == k then f t else t
/-- The context of a number changed. -/
def State.modCtx (s : State) (n : Nat) (f : Ctx → Ctx) : State :=
  s.mapCtxs fun c => if c.live && c.num == n then f c else c
/-- The group of a key. -/
def State.group? (s : State) (k : Nat) : Option Group := s.groups.find? (·.key == k)
/-- The team of a key. -/
def State.team? (s : State) (k : Nat) : Option Team := s.allTeams.find? (·.key == k)
/-- The context of a number. -/
def State.ctx? (s : State) (n : Nat) : Option Ctx := s.allCtxs.find? (·.num == n)

/-- The context of a number brought into focus. -/
def State.focusCtx (s : State) (n : Nat) : State :=
  if s.cx.live && s.cx.num == n then s
  else
    match pickOut (fun c => c.live && c.num == n) s.ctxs with
    | some (c, rest) => { s with cx := c, ctxs := if s.cx.live then s.cx :: rest else rest }
    | none => s

/-- The team of a key brought into focus. -/
def State.focusTeam (s : State) (k : Nat) : State :=
  if s.tm.live && s.tm.key == k then s
  else
    match pickOut (fun t => t.live && t.key == k) s.teams with
    | some (t, rest) => { s with tm := t, teams := if s.tm.live then s.tm :: rest else rest }
    | none => s

/-- The group of a key brought into focus, with its team and its context. -/
def State.focus (s : State) (k : Nat) : State :=
  let s' :=
    if s.g.live && s.g.key == k then s
    else
      match pickOut (fun g => g.live && g.key == k) s.others with
      | some (g, rest) => { s with g := g, others := if s.g.live then s.g :: rest else rest }
      | none => s
  (s'.focusTeam s'.g.team).focusCtx s'.g.ctx

/-- A core. -/
def State.core (s : State) (c : Nat) : Core := SMap.get {} s.cores c
/-- A core changed. -/
def State.modCore (s : State) (c : Nat) (f : Core → Core) : State := { s with cores := SMap.modify {} s.cores c f }
/-- A grove, numbered die × 32 + logical index. -/
def State.grove (s : State) (n : Nat) : Grove := SMap.get {} s.groves n
/-- A grove changed. -/
def State.modGrove (s : State) (n : Nat) (f : Grove → Grove) : State := { s with groves := SMap.modify {} s.groves n f }
/-- An array, numbered as its grove. -/
def State.array (s : State) (n : Nat) : ArrayUnit := SMap.get {} s.arrays n
/-- An array changed. -/
def State.modArray (s : State) (n : Nat) (f : ArrayUnit → ArrayUnit) : State :=
  { s with arrays := SMap.modify {} s.arrays n f }
/-- A die. -/
def State.die (s : State) (d : Nat) : Die := SMap.get {} s.dies d
/-- A die changed. -/
def State.modDie (s : State) (d : Nat) (f : Die → Die) : State := { s with dies := SMap.modify {} s.dies d f }
/-- A bank of an array. -/
def State.bank (s : State) (a n : Nat) : Bank := SMap.get {} (s.array a).banks n
/-- A bank changed. -/
def State.modBank (s : State) (a n : Nat) (f : Bank → Bank) : State :=
  s.modArray a fun u => { u with banks := SMap.modify {} u.banks n f }
/-- An island (R447). -/
def State.island (s : State) (i : Nat) : Island := SMap.get {} s.dev.islands i
/-- An island changed. -/
def State.modIsland (s : State) (i : Nat) (f : Island → Island) : State :=
  { s with dev := { s.dev with islands := SMap.modify {} s.dev.islands i f } }

/-- Core c lies in grove c / 4 and die c / 128 (R291). -/
def groveOf (core : Nat) : Nat := core / 4
/-- The die of a core. -/
def dieOf (core : Nat) : Nat := core / 128

/-- Some word of `[pa, pa + n)` holds an uncorrectable error in its only copy: it was reported for the word (R58), or its frame
could not be retired (R446). -/
def State.eccBad (s : State) (pa n : Nat) : Bool :=
  s.dev.poisoned.contains (pa / 65536) || s.dev.badWords.any fun w => decide (pa < 4 * w + 4) && decide (4 * w < pa + n)

/-- Some word of window bytes `[off, off + n)` holds an uncorrectable error (R58). -/
def Team.eccBad (t : Team) (off n : Nat) : Bool := t.bad.any fun w => decide (off < 4 * w + 4) && decide (4 * w < off + n)

/-- The words of a list that `[a, a + n)` does not cover whole: writing a whole word ends its error (R58). -/
def wordsLeft (a n : Nat) (l : List Nat) : List Nat := l.filter fun w => !(decide (a ≤ 4 * w) && decide (4 * w + 4 ≤ a + n))

/-- A fresh key. -/
def State.takeKey (s : State) : Nat × State := (s.fresh, { s with fresh := s.fresh + 1 })

/-- Free bytes, each from a number never used again (assumption log 3). -/
def State.freeBytes (s : State) (n : Nat) : List Byte × State :=
  ((rangeFrom s.freeCtr n).map Config.freeByte, { s with freeCtr := s.freeCtr + n })

/-- A counter of R425 of the focused context at a holder (core number, or 512 + die) raised. -/
def State.pmcAdd (s : State) (holder code n : Nat) : State :=
  s.modCx fun c => { c with pmc := SMap.modify 0 c.pmc (holder * 256 + code) (· + BitVec.ofNat 64 n) }

/-- A handle of the focused team (R326). -/
def Team.handle (t : Team) (n : Nat) : Handle := SMap.get {} t.handles n
/-- A handle written. -/
def Team.setHandle (t : Team) (n : Nat) (h : Handle) : Team := { t with handles := SMap.set {} t.handles n h }

end Sys2Proof.Machine
end

