-- ==== Sys2Proof/Machine/Packet.lean ====
section
/-! DEFINITION. The branch-and-mask trace: packets, blocks and their staging (R408 to R412). -/

namespace Sys2Proof.Machine

/-- A packet before its time field is known (R410). -/
inductive Packet where
  | sync (reason : Nat)
  | exec (x : Word)
  | cmask (x : Word)
  | target (x : Word)
  | mark (k : BitVec 12) (x : Word)
  | ending (status : Nat)
  deriving DecidableEq, Repr

/-- The bytes of a timed packet with its increment (R410). -/
def Packet.bytes (p : Packet) (g : Group) (time : DWord) (dt : Nat) : List Byte :=
  match p with
  | .sync r =>
    [0x01, BitVec.ofNat 8 r] ++ bytesOfNat 8 g.pc.toNat ++ bytesOfNat 4 g.exec.toNat ++ bytesOfNat 4 g.cmask.toNat ++
      bytesOfNat 8 time.toNat
  | .exec x => [0x04, BitVec.ofNat 8 dt] ++ bytesOfNat 4 x.toNat
  | .cmask x => [0x05, BitVec.ofNat 8 dt] ++ bytesOfNat 4 x.toNat
  | .target x => [0x06, BitVec.ofNat 8 dt] ++ bytesOfNat 4 x.toNat
  | .mark k x => [0x08, BitVec.ofNat 8 dt] ++ bytesOfNat 2 k.toNat ++ bytesOfNat 4 x.toNat
  | .ending st => [0x09, BitVec.ofNat 8 dt, BitVec.ofNat 8 st]

/-- TRACE_LOST of the group's core raised (R400, R412). -/
def State.traceLost (s : State) : State := s.pmcAdd s.g.core 0x2F 1

/-- The trace state of the group changed. -/
def State.modTrc (s : State) (f : TraceState → TraceState) : State := s.modG fun g => { g with trc := f g.trc }

/-- The group's block completed: SEQ advances; without a trace ring the block is dropped and counted, else it enters the
core's stage, or the group keeps it while the stage is full or others wait before it (R400, R409, R469). -/
def State.traceComplete (s : State) (final stop : Bool) : State :=
  let b : TraceBlock :=
    { ctx := s.g.ctx, g := s.g.key, gid := s.g.gid, seq := s.g.trc.seq, final := final, stop := stop, bytes := s.g.trc.block }
  let s1 := s.modTrc fun t => { t with seq := t.seq + 1, block := [] }
  let c := s.core s.g.core
  if s.cx.trcring == 0 then s1.traceLost
  else if c.stage.length < 32 ∧ c.keepers = [] then s1.modCore s.g.core fun c => { c with stage := c.stage ++ [b] }
  else (s1.modTrc fun t => { t with keep := some b }).modCore s.g.core fun c => { c with keepers := c.keepers ++ [s.g.key] }

/-- One packet dropped (R412, R469). -/
def State.traceDrop (s : State) : State := (s.modTrc fun t => { t with lost := t.lost + 1 }).traceLost

/-- The bytes of one packet put into the group's block; a packet that does not fit starts the next block, and while the
group keeps a block such a packet is dropped (R409, R469). -/
def State.traceRaw (s : State) (bs : List Byte) : State :=
  let put := fun (s : State) => s.modTrc fun t => { t with block := t.block ++ bs, sinceSync := t.sinceSync + bs.length }
  if s.g.trc.keep.isSome then s.traceDrop
  else if s.g.trc.block.length + bs.length ≤ 56 then put s
  else
    let s1 := s.traceComplete false false
    if s1.g.trc.keep.isSome then s1.traceDrop else put s1

/-- The TNT byte of the outcomes held, oldest at bit 0 (R410). -/
def tntByte (l : List Bool) : Byte :=
  BitVec.ofNat 8 (0x80 + 16 * l.length + (l.foldr (fun b n => (if b then 1 else 0) + 2 * n) 0))

/-- The pending TNT byte emitted. -/
def State.traceTnt (s : State) : State :=
  if s.g.trc.tnt.isEmpty then s
  else (s.traceRaw [tntByte s.g.trc.tnt]).modTrc fun t => { t with tnt := [] }

/-- A SYNC emitted: it sets the time and begins the next interval (R410, R468). -/
def State.traceSync (s : State) (reason : Nat) : State :=
  (s.traceRaw ((Packet.sync reason).bytes s.g s.dev.time 0)).modTrc fun t => { t with time := s.dev.time, sinceSync := 0 }

/-- TIMEX packets for an increment above 255, at most 2^32 - 1 each (R410). -/
def State.traceTimex : Nat → Nat → State → State
  | 0, _, s => s
  | n + 1, dt, s =>
    if dt = 0 then s
    else State.traceTimex n (dt - min dt 0xFFFFFFFF) (s.traceRaw (0x03 :: bytesOfNat 4 (min dt 0xFFFFFFFF)))

/-- A timed packet with its increment, TIMEX before it when the increment exceeds 255 (R410). -/
def State.traceTimed (s : State) (p : Packet) : State :=
  let dt := (s.dev.time - s.g.trc.time).toNat
  let s1 := s.modTrc fun t => { t with time := s.dev.time }
  if dt > 255 then (State.traceTimex (dt / 0xFFFFFFFF + 1) dt s1).traceRaw (p.bytes s.g s.dev.time 0)
  else s1.traceRaw (p.bytes s.g s.dev.time dt)

/-- What comes before the next packet: after a loss LOSS and a SYNC of reason 2 (R469), after a stop a SYNC of reason 5
(R411). -/
def State.tracePrelude (s : State) : State :=
  if s.g.trc.keep.isSome then s
  else
    let s1 :=
      if s.g.trc.lost = 0 then s
      else
        let n := min s.g.trc.lost 65535
        (((s.modTrc fun t => { t with lost := 0 }).traceRaw (0x02 :: bytesOfNat 2 n)).traceSync 2).modTrc fun t =>
          { t with syncDue := false }
    if s1.g.trc.syncDue then (s1.modTrc fun t => { t with syncDue := false }).traceSync 5 else s1

/-- A packet of the group emitted when TRON = 1, in the order of R468. It is called before the instruction changes PC, EXEC
or CMASK, so that an inserted SYNC carries them as they stood. -/
def State.emit (s : State) (p : Packet) : State :=
  if !s.g.trc.on then s
  else
    let s1 := s.tracePrelude.traceTnt
    match p with
    | .sync r => s1.traceSync r
    | _ => (if 2 ^ (s1.cx.trccfg.toNat % 16) ≤ s1.g.trc.sinceSync then s1.traceSync 0 else s1).traceTimed p

/-- CMASK written by an executed instruction (R408). -/
def State.writeCmask (s : State) (m : Word) : State := (s.emit (.cmask m)).modG fun g => { g with cmask := m }

/-- EXEC written by `mexec`, `mand` or `melse` (R408). -/
def State.writeExec (s : State) (m : Word) : State := (s.emit (.exec m)).modG fun g => { g with exec := m }

/-- A branch outcome gathered; the fourth emits the TNT byte at once; an outcome during a loss is dropped (R410, R468, R469). -/
def State.emitTnt (s : State) (taken : Bool) : State :=
  if !s.g.trc.on then s
  else if s.g.trc.keep.isSome then s.traceDrop
  else
    let s1 := s.tracePrelude.modTrc fun t => { t with tnt := t.tnt ++ [taken] }
    if s1.g.trc.tnt.length == 4 then s1.traceTnt else s1

/-- At a stop: the pending outcomes and the partial block go out, and the next packet is a SYNC of reason 5 (R411). -/
def State.traceStop (s : State) : State :=
  let s1 := s.traceTnt
  let s2 :=
    if s1.g.trc.keep.isSome then s1.modTrc fun t => { t with keep := t.keep.map fun b => { b with stop := true } }
    else if s1.g.trc.block.isEmpty then s1
    else s1.traceComplete false true
  if s.g.trc.on then s2.modTrc fun t => { t with syncDue := true } else s2

/-- At the group's end: END and the last block with FINAL; a group that keeps a block sets FINAL there (R411, R469). -/
def State.traceEnd (s : State) (status : Nat) : State :=
  let s1 := s.emit (.ending status)
  if s1.g.trc.keep.isSome then s1.modTrc fun t => { t with keep := t.keep.map fun b => { b with final := true } }
  else if s1.g.trc.block.isEmpty then s1
  else s1.traceComplete true false

end Sys2Proof.Machine
end

