-- ==== Sys2Proof/Machine/Ops.lean ====
section
/-! DEFINITION. The operations every instruction shares: raising a code, taking a trap, stopping on a fault, waiting at
issue, retiring, and the checks of operands (R140, R242, R376 to R382). -/

namespace Sys2Proof.Machine

/-- The 8-bit code (R374). -/
def Code.num : Code → Nat
  | .illegalOp => 0x01 | .formatTag => 0x03 | .emptyReg => 0x04 | .misaligned => 0x05 | .pageNotPresent => 0x06
  | .pagePermission => 0x07 | .cow => 0x08 | .spadBounds => 0x09 | .bankOwner => 0x0A | .illegalConvergence => 0x0B
  | .boundExceeded => 0x0C | .watchdog => 0x0D | .deadlock => 0x0E | .gridBarrier => 0x0F | .breakpoint => 0x10
  | .trap => 0x11 | .barrierOverflow => 0x12 | .eccUncorrectable => 0x13 | .fabricTimeout => 0x14 | .cancelled => 0x15
  | .handoverViolation => 0x16 | .engineRequest => 0x17 | .ringProtocol => 0x18 | .graftTable => 0x19 | .saveFault => 0x1A

/-- The codes delivered as traps (R376). -/
def Code.isTrap : Code → Bool
  | .formatTag | .emptyReg | .pageNotPresent | .cow | .boundExceeded | .breakpoint | .trap => true
  | .illegalOp | .misaligned | .pagePermission | .spadBounds | .bankOwner | .illegalConvergence | .watchdog | .deadlock
  | .gridBarrier | .barrierOverflow | .eccUncorrectable | .fabricTimeout | .cancelled | .handoverViolation
  | .engineRequest | .ringProtocol | .graftTable | .saveFault => false

/-- The codes whose detail is the translation detail word of R49 (R375). -/
def Code.isTranslation : Code → Bool
  | .pageNotPresent | .pagePermission | .cow | .handoverViolation => true
  | _ => false

/-- The code of a stall reason (R246). -/
def Reason.num : Reason → Nat
  | .none => 0 | .empty => 1 | .counter => 2 | .waitc => 3 | .mma => 4 | .engineQueue => 5 | .atomicQueue => 6
  | .translation => 7 | .ifetch => 8 | .acquire => 9 | .barrier => 10 | .gbar => 11 | .handover => 12 | .dependency => 13

/-- The code of a group state in records (R384). -/
def GState.num : GState → Nat
  | .loading => 0 | .ready => 1 | .issuing => 2 | .stalled => 3 | .blocked => 4 | .frozen => 5 | .stopped => 6 | .ended => 7

/-- The value of a status (R251). -/
def UStatus.num : UStatus → Nat
  | .done => 0 | .terminated => 1 | .cancelled => 2 | .failed => 3

/-- The higher of two statuses (R251). -/
def UStatus.max (a b : UStatus) : UStatus := if a.num < b.num then b else a

/-- The %tcause layout of a raise (R378). -/
def Raise.tcause (r : Raise) : Word := 0#4 ++ r.info ++ r.opnd ++ BitVec.ofNat 8 r.code.num

/-- ILLEGAL_OP at issue with a reason of R375: 1 REG_ALLOC, 2 BAD_TILE, 3 BAD_SHAPE, 4 CHAIN, 5 ISSUE; 0 on decode. -/
def illegal (reason : Nat) (opnd : Nat := 0) : Raise :=
  { code := .illegalOp, info := BitVec.ofNat 12 reason, opnd := BitVec.ofNat 8 opnd }

/-- The codes whose detail names an operand and nothing else (R375). -/
def Code.namesOperand : Code → Bool
  | .emptyReg | .misaligned | .spadBounds => true
  | _ => false

/-- A code with the operand concerned, where R375 names one, and no other detail. -/
def raiseOpnd (c : Code) (opnd : Nat) (va : DWord := 0) : Raise :=
  { code := c, opnd := if c.namesOperand then BitVec.ofNat 8 opnd else 0, va := va }

/-- What an instruction's checks at issue find. -/
inductive Check where
  /-- nothing stands against it -/
  | ok
  /-- the first failing check's code -/
  | raise (r : Raise)
  /-- it waits at issue (R246) -/
  | wait (why : Reason) (w : Wait)
  /-- it waits for the walker (R39) -/
  | walk (q : WalkReq)
  /-- it waits for answers of another package (R13) -/
  | fabric (t : List FabTxn)
  deriving DecidableEq, Repr

/-- The first check that does not pass. -/
def firstCheck : List Check → Check
  | [] => .ok
  | .ok :: t => firstCheck t
  | c :: _ => c

/-- A check that raises when a condition holds. -/
def raiseIf (b : Bool) (r : Raise) : Check := if b then .raise r else .ok

/-- A check that waits when a condition holds. -/
def waitIf (b : Bool) (why : Reason) (w : Wait := .resource) : Check := if b then .wait why w else .ok

/-! ### Taking a trap, stopping on a fault -/

/-- Trap entry (R380): the saved registers, the handler flags, EXEC, MODE and the handler's PC; SYNC when traced (R408). -/
def State.trapEntry (s : State) (r : Raise) (savedPc : DWord) : State :=
  (s.modG fun g =>
    { g with
      tr := { g.tr with
        tep := savedPc, tsexec := g.exec, tscm := g.cmask, tsmode := g.mode, sscc := g.scc, sin := g.tr.inH,
        smask := g.tr.tmask, inH := true, tmask := true, tcause := r.tcause },
      exec := 0xFFFFFFFF, mode := 0x1020,
      pc := g.tr.thand &&& ~~~3#64,
      st := .issuing, reason := .none, wait := .none, bpSkip := false }).emit (.sync 3)

/-- A fault stops the group, which leaves the state `left`, and raises the halt line of its partition (R382, R383 steps 1 and 2). -/
def State.faultStop (s : State) (r : Raise) (pc : DWord) (left : GState := .issuing) : State :=
  { s with
    g := { s.g with pc := pc, st := .stopped, stLeft := left, stopCause := 0 },
    cx := { s.cx with
      faults := s.cx.faults ++ [{ g := s.g.key, raise := r, pc := pc }],
      halt := if s.cx.halt = .lowered then .raised else s.cx.halt } }

/-- An entry put at the end of a first-in first-out cache of a capacity (assumption log 8). -/
def tlbPut (cap : Nat) (e : TlbEntry) (l : List TlbEntry) : List TlbEntry :=
  let l' := l.filter (· ≠ e)
  (if l'.length < cap then l' else l'.drop 1) ++ [e]

/-- The set of a grove TLB that an entry stands in: 256 sets, indexed by the page number of its own page size (R38). -/
def TlbEntry.set (e : TlbEntry) : Nat := e.vpage % 256

/-- An entry put in its set of a grove TLB: 8 ways, first in first out (R38; assumption log 8). -/
def gtlbPut (e : TlbEntry) (l : List TlbEntry) : List TlbEntry :=
  let l' := l.filter (· ≠ e)
  match l'.filter fun x => x.set == e.set with
  | v :: t => (if 7 ≤ t.length then l'.erase v else l') ++ [e]
  | [] => l' ++ [e]

/-- A walk's result entered where its generation is the one the cache has processed (R41). The micro-TLBs of the groups that
missed take it with their grove TLB; a grove TLB hit by itself fills none (assumption log 79). -/
def State.fillTlb (s : State) (q : WalkReq) (e : TlbEntry) : State :=
  match q.root with
  | some k =>
    if SMap.get 0 s.rootGens (k * 65536 + e.ctx) == e.gen then
      { s with rootTlb := SMap.modify [] s.rootTlb k (tlbPut 128 e) }
    else s
  | none =>
    let gr := groveOf q.core
    if SMap.get 0 (s.grove gr).gens e.ctx == e.gen then
      q.micro.foldl (fun (t : State) (k : Nat) => t.modCore k fun c => { c with utlb := tlbPut 64 e c.utlb })
        (s.modGrove gr fun g => { g with gtlb := gtlbPut e g.gtlb })
    else s

/-- The walk of a COW trap enters its leaf (R40). -/
def State.cacheWalk (s : State) (r : Raise) : State :=
  match r.walk with
  | some (q, e) => s.fillTlb q e
  | none => s

/-- A translation code records its address and detail word (R49). -/
def State.recordXlat (s : State) (r : Raise) : State :=
  let s' := s.cacheWalk r
  if r.code.isTranslation then s'.modG fun g => { g with xva := r.va, xdet := r.xdet } else s'

/-- The replay of a failed unit moves past the PC that issues or raises; after the last original it is over (R370). -/
def State.replayStep (s : State) : State :=
  if s.g.replay.contains s.g.pc then
    if s.g.replay.getLast? == some s.g.pc then
      { s with
        g := { s.g with replay := [], rwrec := s.g.rwrec &&& 0xBFFFFFFF },
        cx := { s.cx with graftCnt := SMap.modify 0 s.cx.graftCnt 2 fun x => if x == 0xFFFFFFFF then x else x + 1 } }
    else s
  else s

/-- The code of a number (R374). -/
def Code.ofNum (n : Nat) : Code :=
  match [Code.illegalOp, .formatTag, .emptyReg, .misaligned, .pageNotPresent, .pagePermission, .cow, .spadBounds, .bankOwner,
    .illegalConvergence, .boundExceeded, .watchdog, .deadlock, .gridBarrier, .breakpoint, .trap, .barrierOverflow,
    .eccUncorrectable, .fabricTimeout, .cancelled, .handoverViolation, .engineRequest, .ringProtocol, .graftTable,
    .saveFault].find? (·.num == n) with
  | some c => c
  | none => .fabricTimeout

/-- Delivery of a code: as a trap when R376 allows it, otherwise as a fault (R382); a group that meets it at issue is ISSUING. -/
def State.deliver (s : State) (r : Raise) (savedPc : DWord) (left : GState := .issuing) : State :=
  let s' := s.recordXlat r
  if r.code.isTrap && s'.g.tr.thand.getLsbD 0 && !s'.g.tr.tmask then s'.trapEntry r savedPc
  else s'.faultStop r savedPc left

/-- A code raised by the instruction at issue. Inside a graft unit it is held for the unit's own report (R368). -/
def State.raiseAt (s : State) (r : Raise) (savedPc : DWord) : State :=
  if s.g.rule.isSome then s.modG fun g => { g with unitRaise := some r }
  else (s.replayStep.modG fun g => { g with lastCode := BitVec.ofNat 8 r.code.num }).deliver r savedPc

/-! ### Waiting and retiring -/

/-- The reasons that block a group (R246). -/
def Reason.blocks : Reason → Bool
  | .barrier | .gbar | .handover => true
  | _ => false

/-- The group waits at issue: STALLED, or BLOCKED with its wait-for entry (R198, R245). -/
def State.waitAt (s : State) (why : Reason) (w : Wait) : State :=
  s.modG fun g => { g with st := if why.blocks then .blocked else .stalled, reason := why, wait := w }

/-- An instruction has issued: the PC moves to `npc`, the watchdog count rises (R248), groups held on this one see it
(R263), and ISSUED counts it (R425). A group that its effect has ended or stopped stays so. -/
def State.retire (s : State) (npc : DWord) : State :=
  let s' := s.replayStep
  { s' with
    g := { s'.g with
      pc := npc, lastPc := s'.g.pc, lastCode := 0, wdcount := s'.g.wdcount + 1
      st := if s'.g.st = .ended ∨ s'.g.st = .stopped then s'.g.st else .issuing
      reason := .none, wait := .none, bpSkip := false },
    others := s'.others.map fun h => { h with held := h.held.erase s'.g.key },
    cx := { s'.cx with pmc := SMap.modify 0 s'.cx.pmc (s'.g.core * 256 + 1) (· + 1) } }

/-- An instruction that another party completes has issued; a stopped or frozen group stays so. -/
def State.retireBehind (s : State) (npc : DWord) : State :=
  let st := s.g.st
  (s.retire npc).modG fun g =>
    if st = .stopped ∨ st = .frozen then { g with st := st, stLeft := .ready }
    else if g.st = .issuing then { g with st := .ready } else g

/-- The die whose walker serves a miss (R39). -/
def WalkReq.die (q : WalkReq) : Nat :=
  match q.root with
  | some k => k / 3
  | none => dieOf q.core

/-- Two misses are for one page of a context. -/
def WalkReq.samePage (x q : WalkReq) : Bool := x.ctx == q.ctx && x.va.toNat / 65536 == q.va.toNat / 65536

/-- Two misses share a miss slot when they are for one page: those of one grove, or of one root streamer (R39). -/
def WalkReq.sameSlot (x q : WalkReq) : Bool := x.samePage q && x.root == q.root && (q.root.isSome || groveOf x.core == groveOf q.core)

/-- Two misses in one slot, whatever their kinds (R39). -/
def WalkReq.merge (x q : WalkReq) : WalkReq :=
  { x with kinds := x.kinds ++ q.kinds.filter (!x.kinds.contains ·), micro := x.micro ++ q.micro.filter (!x.micro.contains ·) }

/-- The miss slots of a grove TLB are all taken (R39). -/
def State.slotsFull (s : State) (q : WalkReq) : Bool :=
  q.root.isNone && decide (32 ≤ (s.walks.filter fun x => x.root.isNone && groveOf x.core == groveOf q.core).length)

/-- A miss takes a slot of its cache, or joins the one that holds its page; with no slot free it has to wait (R39). -/
def State.queueWalk (s : State) (q : WalkReq) : State :=
  if s.walks.any (·.sameSlot q) then
    { s with walks := s.walks.map fun x => if x.sameSlot q then x.merge q else x }
  else if s.slotsFull q then s
  else { s with walks := s.walks ++ [q] }

/-- The answers of other packages to the focused group's access dropped once they have been used. -/
def State.clearFab (s : State) : State := { s with fab := s.fab.filter (·.owner != s.g.key) }

/-- What a check that does not pass does: a code, or a wait. -/
def State.refuse (s : State) : Check → State
  | .ok => s
  | .raise r => s.clearFab.raiseAt r s.g.pc
  | .wait why w => s.waitAt why w
  | .walk q => (s.queueWalk q).waitAt .translation .resource
  | .fabric t => { s with fab := s.fab ++ t, fresh := s.fresh + t.length }.waitAt .translation .resource

/-- The checks decide: the effect and the next PC, a code, or a wait. The checks of a graft unit that has begun are behind
it (R358). -/
def State.issueTo (s : State) (c : Check) (npc : DWord) (eff : State → State) : Host.Outcome State Fault Refusal :=
  if c = .ok ∨ s.g.forced = true then .next ((eff s).clearFab.retire npc) else .next (s.refuse c)

/-- An instruction of one word that does not branch. -/
def State.issue (s : State) (c : Check) (eff : State → State) : Host.Outcome State Fault Refusal :=
  s.issueTo c (s.g.pc + 4) eff

/-! ### Operands -/

/-- A register operand: its file, its first register, how many, its empty-trap bit and its OPND code (R378). -/
structure Opd where
  scalar : Bool
  n : Nat
  cnt : Nat := 1
  trap : Bool := false
  code : Nat := 0
  deriving DecidableEq, Repr

/-- A scalar operand of S space. -/
def sOpd (c : BitVec 7) (code : Nat) (trap : Bool := false) (cnt : Nat := 1) : Opd :=
  { scalar := true, n := c.toNat, cnt := cnt, trap := trap, code := code }

/-- An operand of V space: a vector register or a broadcast scalar (R126). -/
def vOpd (c : BitVec 7) (code : Nat) (trap : Bool := false) (cnt : Nat := 1) : Opd :=
  if c.toNat < 96 then { scalar := false, n := c.toNat, cnt := cnt, trap := trap, code := code }
  else { scalar := true, n := c.toNat - 96, cnt := cnt, trap := trap, code := code }

/-- The registers of an operand. -/
def Opd.regs (o : Opd) : List Nat := rangeFrom o.n o.cnt

/-- The group holds every register of an operand (R242). -/
def Opd.held (g : Group) (o : Opd) : Bool := o.regs.all fun r => if o.scalar then g.holdsS r else g.holdsV r

/-- Some register of an operand is empty (R139). -/
def Opd.empty (g : Group) (o : Opd) : Bool := o.regs.any fun r => if o.scalar then g.isEmptyS r else g.isEmptyV r

/-- An empty register has a producer in flight (R141). -/
def Group.produces (g : Group) (scalar : Bool) (r : Nat) : Bool :=
  (g.rets.any fun x => x.scalar == scalar && x.d ≤ r && r < x.d + x.n) ||
  (!scalar && g.atoms.any fun a => a.d == r || (a.wide && a.d + 1 == r)) ||
  (scalar && (match g.mon with | some m => m.token == r | none => false))

/-- The wait for an empty operand: an EMPTY entry in the wait-for table when it has no producer (R200). -/
def Opd.emptyWait (g : Group) (o : Opd) : Wait :=
  match o.regs.find? fun r => (if o.scalar then g.isEmptyS r else g.isEmptyV r) && !g.produces o.scalar r with
  | some r => .empty (if o.scalar then 0x80 + r else r)
  | none => .resource

/-- Allocation of the operands (R242). -/
def allocCheck (g : Group) : List Opd → Check
  | [] => .ok
  | o :: t => if o.held g then allocCheck g t else .raise (illegal 1 o.code)

/-- Full/empty bits of the sources, in order (R140). -/
def emptyCheck (g : Group) : List Opd → Check
  | [] => .ok
  | o :: t =>
    if o.empty g then (if o.trap then .raise (raiseOpnd .emptyReg o.code) else .wait .empty (o.emptyWait g))
    else emptyCheck g t

/-- The register words that an operand reads, as `Group.bad` numbers them. -/
def Opd.words (g : Group) (o : Opd) : List Nat :=
  if o.scalar then o.regs.map (4096 + ·) else o.regs.flatMap fun r => (lanesOf g.active).map (r * 32 + ·)

/-- A source word with an uncorrectable error raises ECC_UNCORRECTABLE (R58). -/
def eccCheck (g : Group) (srcs : List Opd) : Check :=
  raiseIf (!g.bad.isEmpty && srcs.any fun o => (o.words g).any g.bad.contains) { code := .eccUncorrectable }

/-- An instruction whose destination is empty waits until it is full (R140). -/
def destCheck (g : Group) : List Opd → Check
  | [] => .ok
  | o :: t => if o.empty g then .wait .empty (o.emptyWait g) else destCheck g t

/-- Allocation, then the instruction's own refusals, then full/empty bits of sources and destinations; a source that is full may
still hold an uncorrectable word. -/
def operandCheck (g : Group) (srcs dsts : List Opd) (own : Check := .ok) : Check :=
  firstCheck [allocCheck g (srcs ++ dsts), own, emptyCheck g srcs, destCheck g dsts, eccCheck g srcs]

/-- An outstanding counter has room for `n` more operations (R152, R190). -/
def counterCheck (g : Group) (cls n : Nat) : Check := waitIf (63 < g.count cls + n) .counter

/-- An operand of the window: aligned and inside it (R147, R148, R177). The address of the record is the offset, zero-extended; of a
negative one its low 32 bits (R375; assumption log 88). -/
def spadCheck (w : Nat) (off : Int) (size align opnd : Nat) : Check :=
  let va : DWord := if off < 0 then (BitVec.ofInt 32 off).zeroExtend 64 else BitVec.ofInt 64 off
  firstCheck
    [ raiseIf (off % (align : Int) != 0) (raiseOpnd .misaligned opnd va),
      raiseIf (off < 0 || (w : Int) < off + size) (raiseOpnd .spadBounds opnd va) ]

/-- A delivery to scalar or vector registers put in flight; its destination is marked empty (R139) and, when counted, it
is an operation of class LD (R152). -/
def State.produce (s : State) (r : Ret) : State :=
  let (k, s') := s.takeKey
  s'.modG fun g =>
    let g1 := { g.setEmptyN r.scalar r.d true r.n with rets := g.rets ++ [{ r with id := k }] }
    if r.counted then g1.addOp 0 k else g1

/-- A fault met after issue or by another party on behalf of a group (R188, R333): the group stops at once and the halt
line of its context is raised (R382, R383). A group that has ended takes nothing. -/
def State.asyncFault (s : State) (k : Nat) (r : Raise) : State :=
  match s.group? k with
  | none => s
  | some g =>
    if g.st = .ended then s
    else
      (s.modGroup k fun g =>
        { g with st := .stopped, stLeft := if g.st = .stopped then g.stLeft else g.st, stopCause := 0 }).modCtx g.ctx fun c =>
          { c with
            faults := c.faults ++ [{ g := k, raise := r, pc := g.pc }],
            halt := if c.halt = .lowered then .raised else c.halt }

end Sys2Proof.Machine
end

