-- ==== Sys2Proof/Machine/Translate.lean ====
section
/-! DEFINITION. Address translation: regions, the walk of the page table, the translation caches, and the checks of an
access (R12, R13, R19 to R27, R38 to R41, R49). -/

namespace Sys2Proof.Machine

/-! ### The page table -/

/-- Index of a level: the bits of R19. -/
def levelIndex (va : Nat) : Nat → Nat
  | 0 => va / 2 ^ 43 % 2048
  | 1 => va / 2 ^ 30 % 8192
  | 2 => va / 2 ^ 21 % 512
  | _ => va / 2 ^ 16 % 32

/-- Bytes a leaf of a level maps (R19, R24). -/
def leafSize : Nat → Nat
  | 1 => 2 ^ 30
  | 2 => 2 ^ 21
  | _ => 2 ^ 16

/-- Alignment of the table at a level (R19). -/
def tableAlign : Nat → Nat
  | 0 => 2 ^ 16
  | 1 => 2 ^ 16
  | 2 => 2 ^ 12
  | _ => 2 ^ 8

/-- V of an entry. -/
def pteV (e : DWord) : Bool := e.getLsbD 0
/-- LEAF of an entry. -/
def pteLeaf (e : DWord) : Bool := e.getLsbD 1
/-- W of a leaf (R22). -/
def pteW (e : DWord) : Bool := e.getLsbD 2
/-- X of a leaf. -/
def pteX (e : DWord) : Bool := e.getLsbD 3
/-- HOME of a leaf. -/
def pteHome (e : DWord) : BitVec 2 := e.extractLsb' 4 2
/-- CLASS of a leaf. -/
def pteClass (e : DWord) : BitVec 2 := e.extractLsb' 6 2
/-- COW of a leaf. -/
def pteCow (e : DWord) : Bool := e.getLsbD 8
/-- SHARED of a leaf. -/
def pteShared (e : DWord) : Bool := e.getLsbD 9
/-- HOWN of a leaf. -/
def pteHown (e : DWord) : Bool := e.getLsbD 10
/-- HPEND of a leaf. -/
def pteHpend (e : DWord) : Bool := e.getLsbD 11
/-- FRAME of a leaf, PA[51:16]. -/
def pteFrame (e : DWord) : Nat := (e.extractLsb' 12 36).toNat
/-- GEN of a leaf. -/
def pteGen (e : DWord) : BitVec 16 := e.extractLsb' 48 16
/-- NEXT of a table entry, as a physical address. -/
def pteNext (e : DWord) : Nat := (e.extractLsb' 8 44).toNat * 256
/-- A leaf with GEN replaced (R25). -/
def pteStamp (e : DWord) (gen : BitVec 16) : DWord := gen ++ e.extractLsb' 0 48

/-- Every byte of `[pa, pa + n)` lies in one stack's assigned range, or every byte in host memory (R18, R23). -/
def pageAssigned (pa n : Nat) : Bool :=
  (inHbm pa && decide (pa % Config.stackSlot + n ≤ Config.stackBytes)) || (inHost pa && inHost (pa + n - 1))

/-- A malformed entry at a level (R23). -/
def malformed (e : DWord) (level : Nat) : Bool :=
  if pteLeaf e then
    level == 0 || pteFrame e * 65536 % leafSize level != 0 ||
      (pteHome e == 1 && level != 3) || !pageAssigned (pteFrame e * 65536) (leafSize level)
  else
    level == 3 || e.extractLsb' 52 12 != 0 || e.extractLsb' 2 6 != 0 ||
      pteNext e % tableAlign (level + 1) != 0 || !inHbm (pteNext e)

/-- Where a walk ends. -/
inductive Walk where
  /-- an entry with V = 0, at its address and level -/
  | absent (ea level : Nat)
  /-- a malformed entry -/
  | bad (level : Nat)
  /-- a leaf, at its address and level -/
  | leaf (ea level : Nat) (e : DWord)
  deriving DecidableEq, Repr

/-- The walk of R24 from a table at a level, reading entries with `rd`; `fuel` is the number of levels left. -/
def walkFrom (rd : Nat → DWord) (va table : Nat) : Nat → Nat → Walk
  | _, 0 => .bad 3
  | level, fuel + 1 =>
    let ea := table + 8 * levelIndex va level
    let e := rd ea
    if !pteV e then .absent ea level
    else if malformed e level then .bad level
    else if pteLeaf e then .leaf ea level e
    else walkFrom rd va (pteNext e) (level + 1) fuel

/-- The walk of a context's table for a local-region address (R20, R24). -/
def walkTable (rd : Nat → DWord) (c : Ctx) (va : Nat) : Walk := walkFrom rd va (c.base.toNat * 65536) 0 4

/-- The entries a walk reads with their levels and addresses, the last of them where it ends (R24). -/
def walkPath (rd : Nat → DWord) (va table : Nat) : Nat → Nat → List (Nat × Nat × DWord)
  | _, 0 => []
  | level, fuel + 1 =>
    let ea := table + 8 * levelIndex va level
    let e := rd ea
    (level, ea, e) ::
      if pteV e && !pteLeaf e && !malformed e level then walkPath rd va (pteNext e) (level + 1) fuel else []

/-- The entry a die's walk cache holds for a context's generation (R28, R38, R41). -/
def State.walkHit (s : State) (die : Nat) (c : Ctx) (ea : Nat) : Option WalkEntry :=
  (s.die die).walkCache.find? fun x => x.ctx == c.num && x.gen == c.gen && x.ea == ea

/-- An entry as a die's walker reads it: from its walk cache, else from memory (R24, R38). -/
def State.walkRead (s : State) (die : Nat) (c : Ctx) (ea : Nat) : DWord :=
  match s.walkHit die c ea with
  | some x => x.word
  | none => readD s.mem ea

/-! ### Detail words -/

/-- The code of an access kind (R49). -/
def AccKind.num : AccKind → Nat
  | .read => 0 | .write => 1 | .exec => 2 | .maint => 3

/-- The translation detail word (R49). -/
def xdetWord (remote : Bool) (pkg level reason : Nat) (kind : AccKind) (agent : Nat) : Word :=
  BitVec.ofNat 32 ((if remote then 2 ^ 31 else 0) + pkg % 8192 * 2 ^ 18 + level % 8 * 2 ^ 12 + reason % 16 * 2 ^ 8 +
    kind.num * 2 ^ 6 + agent % 8 * 2 ^ 3)

/-- NONCANON (R50). -/
def rsnNoncanon : Nat := 1
/-- MALFORMED (R50). -/
def rsnMalformed : Nat := 2
/-- OUTBOUND (R50). -/
def rsnOutbound : Nat := 3
/-- EXEC (R50). -/
def rsnExec : Nat := 4
/-- WRITE (R50). -/
def rsnWrite : Nat := 5

/-! ### An access -/

/-- What translation of one address gives. -/
inductive XRes where
  | hit (pa : Nat) (e : TlbEntry)
  | raise (r : Raise)
  /-- HPEND is set in the leaf at this address (R26 step 1) -/
  | hold (leaf : Nat)
  /-- a walk has to fill the caches first -/
  | miss (q : WalkReq)
  /-- the fabric carries the access to a package, this one included (R13) -/
  | remote (pkg off : Nat)
  deriving DecidableEq, Repr

/-- Who translates: the agent code of R49, the core whose caches serve it, and a root streamer's stack. With `later` the data
is not consumed by the access itself (R58). -/
structure Who where
  agent : Nat := 0
  core : Nat := 0
  root : Option Nat := none
  later : Bool := false
  deriving DecidableEq, Repr

/-- The caches a party looks in: micro-TLB then grove TLB, the grove TLB for engines, the root TLB (R38). -/
def State.tlbs (s : State) (w : Who) : List TlbEntry :=
  match w.root with
  | some k => SMap.get [] s.rootTlb k
  | none =>
    if w.agent = 0 ∨ w.agent = 5 then (s.core w.core).utlb ++ (s.grove (groveOf w.core)).gtlb
    else (s.grove (groveOf w.core)).gtlb

/-- The micro-TLB that serves a party: that of the core of a group (R38). -/
def Who.micro (w : Who) : List Nat :=
  match w.root with
  | some _ => []
  | none => if w.agent = 0 ∨ w.agent = 5 then [w.core] else []

/-- The die whose walker serves a party (R39). -/
def Who.die (w : Who) : Nat :=
  match w.root with
  | some k => k / 3
  | none => dieOf w.core

/-- An entry of a context translates an address. -/
def TlbEntry.covers (e : TlbEntry) (ctx va : Nat) : Bool := e.ctx == ctx && va / e.size == e.vpage

/-- The entry that translates an address of a context. -/
def tlbFind (l : List TlbEntry) (ctx va : Nat) : Option TlbEntry := l.find? (·.covers ctx va)

/-- The leaf level of a page size. -/
def sizeLevel (n : Nat) : Nat := if n = 2 ^ 30 then 1 else if n = 2 ^ 21 then 2 else 3

/-- Steps 3 to 6 of `check_access` (R26, R40), then the outbound windows for host memory (R444). -/
def checkBits (e : TlbEntry) (va : DWord) (pa : Nat) (kind : AccKind) (det : Nat → Nat → Word) : XRes :=
  let lv := sizeLevel e.size
  if kind = .exec ∧ e.x = false then .raise { code := .pagePermission, va := va, xdet := det lv rsnExec }
  else if kind = .write ∧ e.cow = true then .raise { code := .cow, va := va, xdet := det lv 0 }
  else if kind = .write ∧ e.w = false then .raise { code := .pagePermission, va := va, xdet := det lv rsnWrite }
  else if inHost pa ∧ Config.hostRange pa = false then
    .raise { code := .pagePermission, va := va, xdet := det lv rsnOutbound }
  else .hit pa e

/-- The cached form of a leaf (R38). -/
def tlbOfLeaf (c : Ctx) (va level : Nat) (e : DWord) : TlbEntry :=
  { ctx := c.num, gen := c.gen, size := leafSize level, vpage := va / leafSize level, frame := pteFrame e,
    cls := pteClass e, home := pteHome e, x := pteX e, w := pteW e, cow := pteCow e, shared := pteShared e }

/-- A local-region address of a context translated for a party: the caches, else what the walk would find (R24, R26). A code
found in a cached translation has LEVEL 0b111, since no walk is made (R49). -/
def State.xlatLocal (s : State) (c : Ctx) (w : Who) (va : Nat) (vaFull : DWord) (kind : AccKind) (det : Nat → Nat → Word) :
    XRes :=
  match tlbFind (s.tlbs w) c.num va with
  | some e => checkBits e vaFull (e.frame * 65536 + va % e.size) kind fun _ rsn => det 7 rsn
  | none =>
    match walkTable (s.walkRead w.die c) c va with
    | .absent _ level => .raise { code := .pageNotPresent, va := vaFull, xdet := det level 0 }
    | .bad level => .raise { code := .pagePermission, va := vaFull, xdet := det level rsnMalformed }
    | .leaf ea level e =>
      if pteHpend e then .hold ea
      else if pteHown e then .raise { code := .handoverViolation, va := vaFull, xdet := det level 0 }
      else
        let t := tlbOfLeaf c va level e
        let q : WalkReq :=
          { ctx := c.num, va := BitVec.ofNat 64 va, kinds := [kind], core := w.core, micro := w.micro, root := w.root }
        match checkBits t vaFull (t.frame * 65536 + va % t.size) kind det with
        | .hit _ _ => .miss q
        | .raise r => .raise (if r.code = .cow then { r with walk := some (q, t) } else r)
        | r => r

/-- The fabric reach of a context admits package `p`: REACHEN with its range, or the own package (R438). -/
def Ctx.reaches (c : Ctx) (own p : Nat) : Bool :=
  (c.reach.getLsbD 31 && decide ((c.reach.extractLsb' 0 13).toNat ≤ p) &&
    decide (p ≤ (c.reach.extractLsb' 16 13).toNat)) || p == own

/-- An address of a context translated for a party, with the checks of R12, R13 and R26. A fabric-global address of this package
takes the path of any other: it is looped back at the fabric interface (R13). -/
def State.xlat (s : State) (c : Ctx) (w : Who) (va : DWord) (kind : AccKind) : XRes :=
  let own := s.dev.pkgid.toNat
  let det := fun lv rsn => xdetWord false own lv rsn kind w.agent
  let perm := fun rsn => XRes.raise { code := .pagePermission, va := va, xdet := det 7 rsn }
  if va.extractLsb' 56 8 ≠ 0 then perm rsnNoncanon
  else
    let region := (va.extractLsb' 54 2).toNat
    if region = 1 ∨ region = 2 then perm rsnNoncanon
    else if region = 0 then s.xlatLocal c w va.toNat va kind det
    else if kind = .exec then perm rsnExec
    else
      let p := (va.extractLsb' 41 13).toNat
      let off := (va.extractLsb' 0 41).toNat
      if !(c.reaches own p && decide (Config.pkgLo ≤ p) && decide (p ≤ Config.pkgHi)) then perm rsnOutbound
      else .remote p off

/-- The translation of an access. A read of a frame that holds an uncorrectable word raises ECC_UNCORRECTABLE (R58, R446); a
collective update reads what it writes. -/
def State.translate (s : State) (c : Ctx) (w : Who) (va : DWord) (kind : AccKind) : XRes :=
  match s.xlat c w va kind with
  | .hit pa e =>
    if s.eccBad pa 4 && !w.later && (kind == .read || kind == .exec || w.agent == 3) then
      .raise { code := .eccUncorrectable, va := va }
    else .hit pa e
  | r => r

/-! ### Filling the caches -/

/-- Entries of a context that overlap `[lo, hi)` dropped (R43 step 3). -/
def tlbDrop (ctx lo hi : Nat) (l : List TlbEntry) : List TlbEntry :=
  l.filter fun e => !(e.ctx == ctx && decide (lo < (e.vpage + 1) * e.size) && decide (e.vpage * e.size < hi))

end Sys2Proof.Machine
end

