-- ==== Sys2Proof/Machine/Window.lean ====
section
/-! DEFINITION. A team's window: what tile handles cover, and the writes that advance their generations (R225, R326, R327,
R329). -/

namespace Sys2Proof.Machine

/-- Bytes of an element by tag (R327); 0 for a tag no tile may carry. -/
def tagBytes (t : BitVec 5) : Nat :=
  match t.toNat with
  | 1 | 2 | 3 => 4
  | 4 | 5 => 2
  | 8 => 8
  | 0x0B | 0x0C => 1
  | n => if 16 ≤ n then 1 else 0

/-- Stored rows. -/
def Handle.rows (h : Handle) : Nat := h.rowsm1.toNat + 1
/-- Stored columns. -/
def Handle.cols (h : Handle) : Nat := h.colsm1.toNat + 1
/-- Bytes of a stored row. -/
def Handle.rowBytes (h : Handle) : Nat := h.cols * tagBytes h.tag
/-- Logical rows (R326). -/
def Handle.lrows (h : Handle) : Nat := if h.trans then h.cols else h.rows
/-- Logical columns. -/
def Handle.lcols (h : Handle) : Nat := if h.trans then h.rows else h.cols
/-- Window offset of stored element (r, c). -/
def Handle.elemOff (h : Handle) (r c : Nat) : Nat := h.base.toNat + r * h.stride.toNat + c * tagBytes h.tag
/-- A handle that has been defined (R326). -/
def Handle.defined (h : Handle) : Bool := h.tag != 0
/-- Offset of the scale of a stored element's block (R327). -/
def Handle.scaleOff (h : Handle) (r c : Nat) : Nat := h.scoff.toNat + r * (h.cols / 32) + c / 32

/-- The byte ranges a handle covers: its stored elements and, when block-scaled, its scale vector (R326). -/
def Handle.ranges (h : Handle) : List (Nat × Nat) :=
  if h.defined then
    ((List.range h.rows).map fun r => (h.elemOff r 0, h.rowBytes)) ++
      (if h.sblk then [(h.scoff.toNat, h.rows * h.cols / 32)] else [])
  else []

/-- Two byte ranges meet. -/
def meets (a b : Nat × Nat) : Bool := decide (a.1 < b.1 + b.2) && decide (b.1 < a.1 + a.2)

/-- Some byte of some range is covered. -/
def Handle.hit (h : Handle) (l : List (Nat × Nat)) : Bool := h.ranges.any fun a => l.any fun b => meets a b

/-- +Inf as an f32. -/
def infF32 : Word := 0x7F800000

/-- Maximum of two bounds: non-negative f32 patterns order as integers (R226). -/
def maxBound (a b : Word) : Word := if a.toNat < b.toNat then b else a

/-- Who writes window bytes (R329). -/
inductive Writer where
  /-- a group, engine, root streamer or restore -/
  | other
  /-- a tile instruction through handle `own`, whose bounds it has set; `hb` is its bound after the instruction -/
  | tile (own : Option Nat) (hb : Word)
  deriving DecidableEq, Repr

/-- One write of some byte ranges: HGEN of every handle that covers one of the bytes advances, and its bounds change as
R329 states. Whole words written hold no error (R58). -/
def Team.touch (t : Team) (l : List (Nat × Nat)) (w : Writer) : Team :=
  (List.range 32).foldl
    (fun (t : Team) (n : Nat) =>
      let h := t.handle n
      if h.hit l then
        let h1 := { h with hgen := h.hgen + 1 }
        match w with
        | .other => t.setHandle n { h1 with hm := infF32 }
        | .tile own hb =>
          if own = some n then t.setHandle n h1
          else t.setHandle n { h1 with hb := maxBound h.hb hb, hm := infF32 }
      else t) { t with bad := l.foldl (fun (b : List Nat) (r : Nat × Nat) => wordsLeft r.1 r.2 b) t.bad }

/-- Bytes written by one write of a party that is no tile instruction. -/
def Team.write (t : Team) (off : Nat) (bs : List Byte) : Team :=
  { t with win := winWrite t.win off bs }.touch [(off, bs.length)] .other

end Sys2Proof.Machine
end

