-- ==== Sys2Proof/Machine/Bar.lean ====
section
/-! DEFINITION. Barrier objects: their layout in the window and the steps of their object order (R174 to R176, R389). -/

namespace Sys2Proof.Machine

/-- A barrier object (R174). -/
structure Bar where
  phase : Word
  exparr : BitVec 16
  arr : BitVec 16
  expbytes : Word
  bytes : Word
  deriving DecidableEq, Repr

/-- The object at a window offset. -/
def Team.bar (t : Team) (off : Nat) : Bar where
  phase := BitVec.ofNat 32 (winNat t.win off 4)
  exparr := BitVec.ofNat 16 (winNat t.win (off + 4) 2)
  arr := BitVec.ofNat 16 (winNat t.win (off + 6) 2)
  expbytes := BitVec.ofNat 32 (winNat t.win (off + 8) 4)
  bytes := BitVec.ofNat 32 (winNat t.win (off + 12) 4)

/-- The object at a window offset written. -/
def Team.setBar (t : Team) (off : Nat) (b : Bar) : Team :=
  let l := bytesOfNat 4 b.phase.toNat ++ bytesOfNat 2 b.exparr.toNat ++ bytesOfNat 2 b.arr.toNat ++
    bytesOfNat 4 b.expbytes.toNat ++ bytesOfNat 4 b.bytes.toNat
  t.write off l

/-- `check(O)` (R175). -/
def Bar.check (b : Bar) : Bar :=
  if 0 < b.exparr.toNat + b.expbytes.toNat ∧ b.arr = b.exparr ∧ b.bytes = b.expbytes then
    { b with phase := b.phase + 1, arr := 0, bytes := 0 }
  else b

/-- `arrive(O, a, b)`; none is an overflow (R175). -/
def Bar.arrive (b : Bar) (a n : Nat) : Option Bar :=
  if b.exparr.toNat < b.arr.toNat + a ∨ b.expbytes.toNat < b.bytes.toNat + n then none
  else some ({ b with arr := b.arr + BitVec.ofNat 16 a, bytes := b.bytes + BitVec.ofNat 32 n } : Bar).check

/-- `complete(O, k)` (R175). -/
def Bar.complete (b : Bar) (k : Word) : Bool :=
  decide (1 ≤ (b.phase - k).toNat) && decide ((b.phase - k).toNat ≤ 2 ^ 31)

/-- `withdraw(O, lastph)` (R389). -/
def Bar.withdraw (b : Bar) (lastph : Word) : Bar :=
  if b.exparr = 0 then b
  else
    ({ b with arr := if b.phase = lastph then b.arr - 1 else b.arr, exparr := b.exparr - 1 } : Bar).check

/-- The lowest-numbered group of a team that has not ended (R176). -/
def State.lowestGroup (s : State) (team : Nat) (notKey : Option Nat) : Option Nat :=
  let l := s.groups.filter fun g => g.team == team && g.st != .ended && notKey != some g.key
  (l.foldl (fun (b : Option Group) g => match b with
    | none => some g
    | some h => if g.grp.toNat < h.grp.toNat then some g else some h) none).map (·.key)

/-- An arrival applied to an object of a team; none when it overflows (R175). -/
def State.arriveFor (s : State) (team off a n : Nat) : Option State :=
  match s.team? team with
  | none => some s
  | some t =>
    if t.eccBad off 16 then none
    else
      match (t.bar off).arrive a n with
      | some b => some (s.modTeam team fun t => t.setBar off b)
      | none => none

/-- What an arrival that could not be applied raises: BARRIER_OVERFLOW, or ECC_UNCORRECTABLE of the object's words (R58, R176). -/
def State.badArrive (s : State) (team off : Nat) : Raise :=
  { code := (match s.team? team with | some t => if t.eccBad off 16 then .eccUncorrectable else .barrierOverflow | none => .barrierOverflow)
    va := BitVec.ofNat 64 off }

/-- An arrival the heartwood core posts for a terminated group (R176, R390): an overflow applies nothing and is raised
against a group, or dropped when there is none. -/
def State.postArrive (s : State) (team off a n : Nat) (owner : Option Nat) : State :=
  match s.arriveFor team off a n with
  | some t => t
  | none =>
    match owner with
    | some k => s.asyncFault k (s.badArrive team off)
    | none => s

/-- ENGINE_REQUEST against the group that started an operation, or the lowest group of its team when that one has ended,
with the engine fault record (R176, R188, R189). `origin` is the offset of the request or descriptor, `agent` the code of
R49. -/
def State.engFault (s0 : State) (team k origin agent : Nat) (r : Raise) : State :=
  let s := s0.cacheWalk r
  let live : Bool := match s.group? k with | some g => g.st != .ended | none => false
  match if live then some k else s.lowestGroup team none with
  | none => s
  | some j =>
    let det := if r.code.isTranslation || r.xdet != 0 then r.xdet else xdetWord false s.dev.pkgid.toNat 7 0 .read agent
    let src := if r.code = .barrierOverflow then r.va.toNat else origin
    (s.modGroup j fun g =>
      { g with efva := r.va, efdet := det, efsrc := BitVec.ofNat 32 (src % 2 ^ 24 * 256 + r.code.num) }).asyncFault j
        { code := .engineRequest, va := r.va }

/-- An armed monitor of a group ended with a cause, or with the one that has ended it already: the token register is written, then one arrival of 0 bytes (R168). -/
def State.endMonitor (s : State) (k cause : Nat) : State :=
  match s.group? k with
  | none => s
  | some g =>
    match g.mon with
    | none => s
    | some m =>
      let s1 := s.modGroup k fun g => { ((g.setS m.token (BitVec.ofNat 32 (m.cause.getD cause))).setEmpty true m.token false) with mon := none }
      let s2 := s1.modGrove (groveOf g.core) fun gr => { gr with mons := gr.mons.erase k }
      match s2.arriveFor g.team m.obj 1 0 with
      | some t => t
      | none => s2.engFault g.team k m.obj 0 (s2.badArrive g.team m.obj)

/-- The halt line of a context is raised for a fault or a debugger (R383, R420). -/
def Ctx.lineUp (c : Ctx) : Bool := c.halt != .lowered || c.debugHalt || c.cut == some 3

/-- The line of a context, by number. -/
def State.lineUp (s : State) (ctx : Nat) : Bool := match s.ctx? ctx with | some c => c.lineUp | none => false

/-- A cause that ends a monitor: it is posted at once, or when the line is lowered (R383 step 8). -/
def State.loseMonitor (s : State) (k cause : Nat) : State :=
  match s.group? k with
  | none => s
  | some g =>
    if s.lineUp g.ctx then
      (s.modGroup k fun g => { g with mon := g.mon.map fun m => { m with cause := some (m.cause.getD cause) } }).modGrove (groveOf g.core)
        fun gr => { gr with mons := gr.mons.erase k }
    else s.endMonitor k cause

/-! ### Ring descriptors (R192) -/

/-- A ring descriptor (R192). -/
structure Ring where
  slotOff : Nat
  resv : Nat
  nslot : Nat
  slotsz : Nat
  barOff : Nat
  handle : Nat
  kind : Bool
  active : Bool
  take : Nat
  put : Nat
  free : Nat
  deriving DecidableEq, Repr

/-- The descriptor at a window offset. -/
def Team.ring (t : Team) (off : Nat) : Ring :=
  let w0 := winNat t.win off 4
  let w1 := winNat t.win (off + 4) 4
  let w2 := winNat t.win (off + 8) 4
  let w3 := winNat t.win (off + 12) 4
  { slotOff := w0, resv := w1 % 256, nslot := w1 / 256 % 256, slotsz := w1 / 65536, barOff := w2, handle := w3 % 8
    kind := w3 / 64 % 2 == 1, active := w3 / 128 % 2 == 1, take := w3 / 256 % 256, put := w3 / 65536 % 256
    free := w3 / 2 ^ 24 }

/-- Word 3 of the descriptor at a window offset written, in one step (R196). -/
def Team.setRing3 (t : Team) (off : Nat) (r : Ring) : Team :=
  let w3 := r.handle % 8 + (if r.kind then 64 else 0) + (if r.active then 128 else 0) + 256 * (r.take % 256) +
    65536 * (r.put % 256) + 2 ^ 24 * (r.free % 256)
  t.write (off + 12) (bytesOfNat 4 w3)

/-- A subscription ended with its ring as `rcancel` leaves it (R196): each tile slot is one step here, so none is in
progress. -/
def State.cancelSub (s : State) (b : Sub) : State :=
  let s1 := s.modTeam b.team fun t =>
    let r := t.ring b.ring
    t.setRing3 b.ring (if b.store then { r with active := false, free := r.nslot, take := r.put } else { r with active := false })
  { s1 with subs := s1.subs.filter fun x => !(x.team == b.team && x.handle == b.handle) }

end Sys2Proof.Machine
end

