-- ==== Sys2Proof/Machine/Span.lean ====
section
/-! DEFINITION. L1 slices, the homing L2 slices, the span directory and the walker, which reads through them (R24, R56, R59 to R64,
R68, R72 to R75, R81 to R92). Memory
holds what has been performed at the coherence point (R85); stores that wait for a grant stand beside it, and the tables
record which grove holds which words. -/

namespace Sys2Proof.Machine

/-! ### Where a line lives -/

/-- The line of a physical address. -/
def lineOf (pa : Nat) : Nat := pa / 128
/-- The die of the homing slice (R59). -/
def homeDie (pa : Nat) : Nat := if inHost pa then 0 else pa / Config.stackSlot / 3
/-- The homing slice within its die (R59). -/
def homeSlice (pa : Nat) : Nat :=
  (pa / 2 ^ 7 % 64) ^^^ (pa / 2 ^ 13 % 64) ^^^ (pa / 2 ^ 19 % 64) ^^^ (pa / 2 ^ 25 % 64)
/-- The key of the set within its die: slice × 768 + set (R59). -/
def homeSet (pa : Nat) : Nat := homeSlice pa * 768 + pa / 2 ^ 13 % 768
/-- The L1 slice of a grove that may hold a line (R60). -/
def l1Slice (pa : Nat) : Nat := (pa / 2 ^ 7 % 4) ^^^ (pa / 2 ^ 13 % 4) ^^^ (pa / 2 ^ 19 % 4)
/-- The set within an L1 slice (R60). -/
def l1Set (pa : Nat) : Nat := pa / 2 ^ 9 % 256
/-- A sampling set (R68). -/
def sampling (pa : Nat) : Bool := l1Set pa % 8 == 5

/-- The home grove of a physical address: the enabled grove of the homing die whose index is the slice halved (R160). -/
def homeGrove (pa : Nat) : Nat := homeDie pa * 32 + homeSlice pa / 2

/-- The bytes of a line that `[pa, pa + n)` covers; they lie in one line. -/
def byteMask (pa n : Nat) : BitVec 128 := BitVec.ofNat 128 ((2 ^ n - 1) * 2 ^ (pa % 128))

/-- The smallest span that contains the words of a mask (R81): first word and count. -/
def spanOf (m : Word) : Nat × Nat :=
  match lanesOf m with
  | [] => (0, 0)
  | a :: t => (a, (t.getLastD a) + 1 - a)

/-- The mask of a span. -/
def spanMask (first n : Nat) : Word := (rangeFrom first n).foldl (fun m i => setBit m i true) 0

/-! ### Words of an L1 (R82) -/

/-- A word of a line in a grove. -/
def Grove.word (g : Grove) (line i : Nat) : L1Word := SMap.get {} g.l1 (line * 32 + i)
/-- Words of a line changed. -/
def Grove.modWords (g : Grove) (line : Nat) (m : Word) (f : L1Word → L1Word) : Grove :=
  { g with l1 := (lanesOf m).foldl (fun t i => SMap.modify {} t (line * 32 + i) f) g.l1 }
/-- The words of a line that meet a condition. -/
def Grove.maskOf (g : Grove) (line : Nat) (p : L1Word → Bool) : Word :=
  (List.range 32).foldl (fun m i => if p (g.word line i) then setBit m i true else m) 0
/-- Words in state S or W. -/
def Grove.validMask (g : Grove) (line : Nat) : Word := g.maskOf line (·.valid)
/-- Words in state W. -/
def Grove.wMask (g : Grove) (line : Nat) : Word := g.maskOf line (·.granted)

/-! ### The directory (R86) -/

/-- The directory entry of a line; an entry with no records is freed (R88). -/
def State.dirOf (s : State) (line : Nat) : DirEntry :=
  (SMap.get none (s.die (homeDie (line * 128))).dir line).getD (.precise [])

/-- The directory entry written. -/
def State.setDir (s : State) (line : Nat) (e : DirEntry) : State :=
  s.modDie (homeDie (line * 128)) fun d =>
    { d with dir := SMap.set none d.dir line (match e with
      | .precise [] => none
      | .broadcast dies _ => if dies = 0 then none else some e
      | _ => some e) }

/-- Words added to a grove's record of a kind. -/
def addRec (l : List DirRec) (grove : Nat) (w : Bool) (m : Word) : List DirRec :=
  if m = 0 then l
  else if l.any (fun r => r.grove == grove && r.w == w) then
    l.map fun r => if r.grove == grove && r.w == w then { r with mask := r.mask ||| m } else r
  else l ++ [{ grove := grove, w := w, mask := m }]

/-- Words taken from the records that meet `p`; a record left with no word goes. -/
def subRec (l : List DirRec) (p : DirRec → Bool) (m : Word) : List DirRec :=
  (l.map fun r => if p r then { r with mask := r.mask &&& ~~~m } else r).filter (·.mask ≠ 0)

/-- A counter of R92 of a context. -/
def State.pmcCtx (s : State) (ctx holder code n : Nat) : State :=
  s.modCtx ctx fun c => { c with pmc := SMap.modify 0 c.pmc (holder * 256 + code) (· + BitVec.ofNat 64 n) }

/-- The core whose slice of a grove holds a line. -/
def sliceCore (grove line : Nat) : Nat := grove * 4 + l1Slice (line * 128)

/-- A grove that R277 enables. -/
def State.groveOn (s : State) (g : Nat) : Bool := SMap.get 34 (s.die (g / 32)).groves (g % 32) != 34

/-! ### L2 lines (R56, R75) -/

/-- L2 lines of a set. -/
def State.l2Set (s : State) (line : Nat) : List L2Line := SMap.get [] (s.die (homeDie (line * 128))).l2 (homeSet (line * 128))

/-- The lines of a set changed. -/
def State.modL2Set (s : State) (line : Nat) (f : List L2Line → List L2Line) : State :=
  s.modDie (homeDie (line * 128)) fun d => { d with l2 := SMap.modify [] d.l2 (homeSet (line * 128)) f }

/-- Words of a line merged into its L2 copy: they are dirty there (R85, R87). -/
def State.l2Merge (s : State) (line : Nat) (m : Word) : State :=
  if m = 0 then s
  else s.modL2Set line fun l => l.map fun x => if x.line == line then { x with valid := x.valid ||| m, dirty := x.dirty ||| m } else x

/-! ### Messages performed (R87) -/

/-- Words of a grant with dirty bytes. -/
def Grove.wDirty (g : Grove) (line : Nat) : Word := g.maskOf line fun x => x.granted && x.dirty ≠ 0

/-- RECALL: the grove writes back the dirty bytes of the words and keeps them as S. The message counts for the context of the
request that causes it (assumption log 77). -/
def State.doRecall (s : State) (ctx grove line : Nat) (m : Word) : State :=
  let w := (s.grove grove).wMask line &&& m
  let back := (s.grove grove).wDirty line &&& m
  let s1 := s.modGrove grove fun g => g.modWords line w fun x => { x with granted := false, valid := true, dirty := 0 }
  let s2 := match s1.dirOf line with
    | .precise l => s1.setDir line (.precise (addRec (subRec l (fun r => r.grove == grove && r.w) m) grove false w))
    | .broadcast .. => s1
  (s2.l2Merge line back).pmcCtx ctx (sliceCore grove line) 0x25 1

/-- A line with no word left is no longer held. -/
def Grove.dropEmpty (g : Grove) (line : Nat) : Grove :=
  if g.maskOf line (fun x => x.valid || x.dirty ≠ 0) = 0 then { g with lru := g.lru.filter (·.line != line) } else g

/-- INV: dirty bytes of W words are written back and the words become I; dirty bytes without a grant stay (R84). -/
def State.doInv (s : State) (ctx grove line : Nat) (m : Word) : State :=
  let back := (s.grove grove).wDirty line &&& m
  let s1 := s.modGrove grove fun g =>
    (g.modWords line m fun x => { x with valid := false, granted := false, dirty := if x.granted then 0 else x.dirty }).dropEmpty line
  let s2 := match s1.dirOf line with
    | .precise l => s1.setDir line (.precise (subRec l (fun r => r.grove == grove) m))
    | .broadcast .. => s1
  (s2.l2Merge line back).pmcCtx ctx (sliceCore grove line) 0x26 1

/-- BINV at one grove: every word of the line becomes I. -/
def State.doBinv (s : State) (ctx grove line : Nat) : State :=
  (s.modGrove grove fun g =>
    (g.modWords line 0xFFFFFFFF fun x => { x with valid := false, granted := false }).dropEmpty line).pmcCtx ctx
      (sliceCore grove line) 0x26 1

/-- WB: the words leave the grove's W record with their dirty bytes. -/
def State.doWb (s : State) (grove line : Nat) (m : Word) : State :=
  let w := (s.grove grove).wMask line &&& m
  let back := (s.grove grove).wDirty line &&& m
  let s1 := s.modGrove grove fun g =>
    (g.modWords line w fun _ => {}).dropEmpty line
  let s2 := match s1.dirOf line with
    | .precise l => s1.setDir line (.precise (subRec l (fun r => r.grove == grove && r.w) w))
    | .broadcast .. => s1
  s2.l2Merge line back

/-- DROP: clean words leave the slice; ignored by a broadcast entry. -/
def State.doDrop (s : State) (grove line : Nat) (m : Word) : State :=
  let g0 := s.grove grove
  let c := g0.validMask line &&& ~~~(g0.wMask line) &&& m
  let s1 := s.modGrove grove fun g => (g.modWords line c fun x => { x with valid := false }).dropEmpty line
  match s1.dirOf line with
  | .precise l => s1.setDir line (.precise (subRec l (fun r => r.grove == grove && !r.w) c))
  | .broadcast .. => s1

/-- The enabled groves of the dies of a mask (R87, R277). -/
def State.grovesOfDies (s : State) (dies : BitVec 4) : List Nat :=
  (List.range 128).filter fun g => dies.getLsbD (g / 32) && s.groveOn g

/-- The records of a precise entry after a request whose messages have been acknowledged (R87). -/
def State.recsAfter (s : State) (q : CohReq) (l : List DirRec) : List DirRec :=
  let m := spanMask q.first q.n
  if q.write then addRec (subRec l (fun r => !(r.grove == q.grove && r.w)) m) q.grove true m
  else addRec l q.grove false (m &&& ~~~((s.grove q.grove).wMask q.line))

/-- A request would leave a precise entry needing a fifth record (R88). -/
def State.overflows (s : State) (q : CohReq) : Bool :=
  match s.dirOf q.line with
  | .precise l => decide (4 < (s.recsAfter q l).length)
  | .broadcast .. => false

/-- The messages a request causes at its homing slice (R87, R88): grove, kind, mask. -/
def State.cohMsgs (s : State) (q : CohReq) : List (Nat × CohKind × Word) :=
  let m := spanMask q.first q.n
  match s.dirOf q.line with
  | .precise l =>
    let other := l.filter fun r => r.grove ≠ q.grove
    if s.overflows q then (l.filter (·.w)).map fun r => (r.grove, .recall, r.mask)
    else if q.write then (other.filter fun r => r.mask &&& m ≠ 0).map fun r => (r.grove, .inv, r.mask &&& m)
    else (other.filter fun r => r.w && r.mask &&& m ≠ 0).map fun r => (r.grove, .recall, r.mask &&& m)
  | .broadcast dies _ =>
    if q.write then ((s.grovesOfDies dies).filter (· ≠ q.grove)).map fun g => (g, .binv, 0xFFFFFFFF) else []

/-- COH_BCAST of the homing slice of a request rises (R92). -/
def State.countBcast (s : State) (ctx line : Nat) : State := s.pmcCtx ctx (512 + homeDie (line * 128)) 0x27 1

/-- The entry of a line switched to broadcast mode for a request, once every W record has been recalled (R88). -/
def State.toBroadcast (s : State) (q : CohReq) : State :=
  match s.dirOf q.line with
  | .precise l =>
    let dies := l.foldl (fun (d : BitVec 4) (r : DirRec) => d ||| BitVec.ofNat 4 (2 ^ (r.grove / 32))) (BitVec.ofNat 4 (2 ^ (q.grove / 32)))
    let un := l.foldl (fun (u : Word) (r : DirRec) => u ||| r.mask) (spanMask q.first q.n)
    (s.setDir q.line (.broadcast dies un)).countBcast q.ctx q.line
  | .broadcast .. => s

/-- The directory entry after a request whose messages have been acknowledged (R87, R88). -/
def State.cohRecord (s : State) (q : CohReq) : State :=
  let m := spanMask q.first q.n
  match s.dirOf q.line with
  | .precise l => s.setDir q.line (.precise (s.recsAfter q l))
  | .broadcast dies un =>
    if q.write then
      s.setDir q.line (.precise (addRec (addRec [] q.grove false ((s.grove q.grove).validMask q.line &&& ~~~m)) q.grove true m))
    else s.setDir q.line (.broadcast (dies ||| BitVec.ofNat 4 (2 ^ (q.grove / 32))) (un ||| m))

/-! ### L2 allocation (R72 to R75, R89) -/

/-- MIN of a class (R72). -/
def quotaMin (q : DWord) (c : Nat) : Nat := (q.toNat / 2 ^ (16 * c)) % 32
/-- MAX of a class (R72). -/
def quotaMax (q : DWord) (c : Nat) : Nat := (q.toNat / 2 ^ (16 * c + 8)) % 32

/-- One way taken from the first reducible minimum: general, key-value, activations, weights (R74). -/
def reduceOne (m : List Nat) : List Nat :=
  match m with
  | [a, b, c, d] =>
    if d > 0 then [a, b, c, d - 1] else if c > 0 then [a, b, c - 1, d] else if b > 0 then [a, b - 1, c, d] else [a - 1, b, c, d]
  | _ => m

/-- The minimums as retired ways leave them (R74). -/
def reduceMins (avail : Nat) (m : List Nat) : Nat → List Nat
  | 0 => m
  | k + 1 => if m.sum ≤ avail then m else reduceMins avail (reduceOne m) k

/-- Where a line of a class goes in a set: a way with no valid word, or the victim's way, with the line that leaves (R75). -/
def l2Victim (q : DWord) (retired : List Nat) (l : List L2Line) (c : Nat) : Option (Nat × Option L2Line) :=
  match (List.range 16).find? fun w => !retired.contains w && !l.any fun x => x.way == w && x.valid != 0 with
  | some w => some (w, l.find? (·.way == w))
  | none =>
    let mins := reduceMins (16 - retired.length) ((List.range 4).map (quotaMin q)) 64
    let mn := fun k => mins.getD k 0
    let n := fun k => (l.filter fun x => x.cls.toNat == k && x.valid != 0).length
    let cand := l.filter fun x => !x.pinned && x.valid != 0
    let pool :=
      if quotaMax q c ≤ n c then cand.filter (·.cls.toNat == c)
      else if n c < mn c then cand.filter fun x => x.cls.toNat ≠ c && mn x.cls.toNat < n x.cls.toNat
      else cand.filter fun x => x.cls.toNat == c || mn x.cls.toNat < n x.cls.toNat
    match pool with
    | [] => none
    | v :: _ => some (v.way, some v)

/-- Every L1 copy of a line invalidated, with the dirty bytes of W words written back (R89). -/
def State.invAll (s : State) (ctx line : Nat) : State :=
  match s.dirOf line with
  | .precise l => (l.foldl (fun (t : State) (r : DirRec) => t.doInv ctx r.grove line r.mask) s).setDir line (.precise [])
  | .broadcast dies _ =>
    ((((s.grovesOfDies dies).foldl (fun t g => t.doBinv ctx g line) s).setDir line (.precise []))).countBcast ctx line

/-- A line looked up in its homing slice, and allocated with all its words when absent (R57, R75, R89); the flag says whether it
is resident. A line whose page asks to be pinned is pinned now if its set has room, and counts PIN_OVERFLOW if not (R30). -/
def State.l2Alloc (s : State) (ctx line vline : Nat) (cls : BitVec 2) (pinned : Bool) : Bool × State :=
  let die := homeDie (line * 128)
  let l := s.l2Set line
  let room := decide ((l.filter fun x => x.pinned && x.line != line).length < 8)
  let count := fun (t : State) => if pinned && !room then t.pmcCtx ctx (512 + die) 0x28 1 else t
  match l.find? (·.line == line) with
  | some x =>
    (true, count (s.modL2Set line fun l => l.erase x ++ [{ x with pinned := (x.pinned || pinned) && (room || x.pinned) }]))
  | none =>
    match l2Victim (s.die die).l2quota (SMap.get [] (s.die die).retiredWays (homeSet (line * 128))) l cls.toNat with
    | none => (false, s)
    | some (w, v) =>
      let s1 := match v with | some v => (s.invAll ctx v.line).modL2Set line fun l => l.filter (·.line != v.line) | none => s
      (true, count (s1.modL2Set line fun l =>
        l ++ [{ line := line, ctx := ctx, vline := vline, cls := cls, pinned := pinned && room, way := w }]))

/-! ### L1 allocation (R61, R62, R68) -/

/-- Ways of the L1 slice of a core (R62). -/
def Core.l1Ways (c : Core) : Nat := 16 - c.spways

/-- The line of a grove is pinned there (R29). -/
def Grove.pinnedLine (g : Grove) (line : Nat) : Bool := g.pins.any fun p => p.1 == line / 512

/-- A grove's L1 holds a line. -/
def Grove.holds (g : Grove) (line : Nat) : Bool := g.lru.any (·.line == line)

/-- The lines of the L1 set of a line, least recently used first (R60). -/
def Grove.l1SetOf (g : Grove) (line : Nat) : List L1Line :=
  g.lru.filter fun x => l1Slice (x.line * 128) == l1Slice (line * 128) && l1Set (x.line * 128) == l1Set (line * 128)

/-- A line leaves a grove's L1: dirty words are written back, clean words dropped (R61, R64, R87). Bytes that wait for a grant
stay with their stores. -/
def State.evictL1 (s : State) (grove line : Nat) : State :=
  ((s.doWb grove line 0xFFFFFFFF).doDrop grove line 0xFFFFFFFF).modGrove grove fun g =>
    { g.modWords line 0xFFFFFFFF fun _ => {} with lru := g.lru.filter (·.line != line) }

/-- The ways a line may take (R62): those of the slice, and of these ways 0 and 1 for a pinned line. -/
def State.l1WaysFor (s : State) (grove line : Nat) : List Nat :=
  if (s.grove grove).pinnedLine line then [0, 1] else List.range (s.core (sliceCore grove line)).l1Ways

/-- A line put in its L1 set, in the lowest free way it may take or in that of the least recently used line that is not pinned
(R61); the shadow way of a sampling set notes the line that leaves (R68). -/
def State.l1Place (s : State) (grove line : Nat) : State :=
  let g := s.grove grove
  let inSet := g.l1SetOf line
  let ways := s.l1WaysFor grove line
  match ways.find? fun w => !inSet.any (·.way == w) with
  | some w => s.modGrove grove fun g => { g with lru := g.lru ++ [{ line := line, way := w }] }
  | none =>
    match inSet.find? fun x => ways.contains x.way && !g.pinnedLine x.line with
    | none => s
    | some v =>
      let t := s.evictL1 grove v.line
      let t1 := if sampling (v.line * 128) then
          t.modCore (sliceCore grove line) fun c => { c with shadow := SMap.set 0 c.shadow (l1Set (line * 128)) (v.line + 1) }
        else t
      t1.modGrove grove fun g => { g with lru := g.lru ++ [{ line := line, way := v.way }] }

/-- A line made most recently used in its L1 set, allocated when absent; a line that has become pinned moves to a way that
pinned lines may hold (R62). -/
def State.l1Touch (s : State) (grove line : Nat) : State :=
  match (s.grove grove).lru.find? (·.line == line) with
  | none => s.l1Place grove line
  | some x =>
    if (s.l1WaysFor grove line).contains x.way then
      s.modGrove grove fun g => { g with lru := g.lru.filter (·.line != line) ++ [x] }
    else (s.modGrove grove fun g => { g with lru := g.lru.filter (·.line != line) }).l1Place grove line

/-- The counters of a sampling set (R68): a miss that hits the shadow tag, a hit on the least recently used valid line. -/
def State.l1Count (s : State) (grove line : Nat) (miss : Bool) : State :=
  let core := sliceCore grove line
  let g := s.grove grove
  if !sampling (line * 128) || (s.core core).lend then s
  else if miss then
    if !g.holds line && SMap.get 0 (s.core core).shadow (l1Set (line * 128)) == line + 1 then
      s.modCore core fun c => { c with shadowHits := c.shadowHits + 1 }
    else s
  else if ((g.l1SetOf line).find? fun x => g.validMask x.line != 0).map (·.line) == some line then
    s.modCore core fun c => { c with lastwayHits := c.lastwayHits + 1 }
  else s

/-- PA bit 16 of a frame: with the set index it decides which L1 sets its lines use (R60). -/
def frameHalf (frame : Nat) : Nat := frame % 2

/-- The page of a HOME 0b01 access pinned in the first grove that reaches it; whether it is pinned in this grove (R29, R30). A
page whose sets already hold two pinned lines in ways 0 and 1 is served as HOME 0b00 too (R62; assumption log 78). -/
def State.pinPage (s : State) (ctx grove frame vpage : Nat) : Bool × State :=
  let pins := (s.grove grove).pins
  if pins.any (fun p => p.1 == frame && p.2.1 == ctx) then (true, s)
  else if (List.range 128).any fun g => (s.grove g).pins.any (·.1 == frame) then (false, s)
  else if decide (pins.length < 4) && decide ((pins.filter fun p => frameHalf p.1 == frameHalf frame).length < 2) then
    (true, s.modGrove grove fun g => { g with pins := g.pins ++ [(frame, ctx, vpage)] })
  else (false, s.pmcCtx ctx (512 + homeDie (frame * 65536)) 0x28 1)

/-- The page of a line is pinned in some grove: its L2 copies are pinned too (R75). -/
def State.framePinned (s : State) (frame : Nat) : Bool := s.groves.any fun p => p.2.pins.any (·.1 == frame)

/-! ### Lines of an access -/

/-- One line of an access: its line, the words it touches, its class and HOME. -/
structure LineUse where
  line : Nat
  vline : Nat
  bytes : BitVec 128
  cls : BitVec 2
  home : BitVec 2
  deriving DecidableEq, Repr

/-- The bytes touched in one word of the line. -/
def LineUse.nib (u : LineUse) (i : Nat) : BitVec 4 := u.bytes.extractLsb' (4 * i) 4
/-- The words touched. -/
def LineUse.mask (u : LineUse) : Word := (List.range 32).foldl (fun m i => if u.nib i = 0 then m else setBit m i true) 0

/-- One more span of bytes within a line joined to the lines an instruction uses. -/
def addUse (l : List LineUse) (pa n : Nat) (e : TlbEntry) : List LineUse :=
  if l.any (·.line == lineOf pa) then
    l.map fun u => if u.line == lineOf pa then { u with bytes := u.bytes ||| byteMask pa n } else u
  else l ++ [{ line := lineOf pa, vline := (e.vpage * e.size + pa % e.size) / 128, bytes := byteMask pa n, cls := e.cls,
               home := e.home }]

/-- `[pa, pa + n)` cut at the ends of lines: the part in each line. -/
def lineParts (pa n : Nat) : List (Nat × Nat) :=
  if n = 0 then []
  else (List.range ((pa % 128 + n - 1) / 128 + 1)).map fun k =>
    let lo := max pa (128 * (pa / 128 + k))
    (lo, min (pa + n) (128 * (pa / 128 + k + 1)) - lo)

/-- The lines of an instruction's accesses: physical address, bytes, translation. -/
def linesOf (l : List (Nat × Nat × TlbEntry)) : List LineUse :=
  l.foldl (fun t x => (lineParts x.1 x.2.1).foldl (fun (t : List LineUse) (p : Nat × Nat) => addUse t p.1 p.2 x.2.2) t) []

/-- The bytes of a store marked dirty in the slice (R84). -/
def Grove.dirtyWords (g : Grove) (u : LineUse) : Grove :=
  { g with l1 := (lanesOf u.mask).foldl (fun t i =>
      SMap.modify {} t (u.line * 32 + i) fun x => { x with dirty := x.dirty ||| u.nib i }) g.l1 }

/-! ### Writes of memory -/

/-- Monitors whose span a write touches end with cause WRITE (R168). -/
def Group.monHit (g : Group) (pa n : Nat) : Group :=
  match g.mon with
  | some m =>
    if m.cause.isNone && decide (pa < m.pa + 4 * m.words) && decide (m.pa < pa + n) then
      { g with mon := some { m with cause := some 1 } }
    else g
  | none => g

/-- Where a monitor's span lies that another package holds: above every physical address. -/
def farMon (pkg off : Nat) : Nat := Config.physTop + pkg * 2 ^ 41 + off

/-- A byte of the frame descriptor table, which only the list and count operations and the heartwood core change (R33). -/
def inFdt (pa : Nat) : Bool := decide (Config.fdtBase ≤ pa) && decide (pa < Config.fdtBase + Config.fdtBytes)

/-- Bytes stored at a physical address by any party, with the monitors they end (R168); whole words written hold no error
(R58). They lie in one frame, and those of the frame descriptor table are read-only (R33). -/
def State.storeBytes (s : State) (pa : Nat) (bs : List Byte) : State :=
  { (s.mapGroups (·.monHit pa bs.length)) with
    mem := if inFdt pa then s.mem else writeBytes s.mem pa bs
    dev := { s.dev with badWords := wordsLeft pa bs.length s.dev.badWords } }

/-! ### Stores of a group (R84, R85) -/

/-- The words of its line that a store writes. -/
def PendStore.mask (p : PendStore) : Word :=
  let lo := p.pa % 128 / 4
  spanMask lo ((p.pa % 128 + p.bytes.length + 3) / 4 - lo)

/-- Two stores of one grove write a common byte. -/
def PendStore.meets (p q : PendStore) : Bool :=
  p.grove == q.grove && decide (p.pa < q.pa + q.bytes.length) && decide (q.pa < p.pa + p.bytes.length)

/-- A store can be performed: every word it writes is granted, or among `extra`, and no earlier store of its grove that waits
writes one of its bytes (R84, R85, R90). -/
def State.mayPerform (s : State) (extra : Word) (earlier : List PendStore) (p : PendStore) : Bool :=
  decide (p.mask &&& ~~~((s.grove p.grove).wMask (lineOf p.pa) ||| extra) = 0) && !earlier.any p.meets

/-- A byte as the groups of a grove see it: bytes that wait for a grant take precedence (R83). -/
def State.byteFor (s : State) (gr a : Nat) : Byte :=
  match s.pend.reverse.find? fun p => p.grove == gr && decide (p.pa ≤ a) && decide (a < p.pa + p.bytes.length) with
  | some p => p.bytes.getD (a - p.pa) 0
  | none => readByte s.mem a

/-- Bytes as the groups of a grove see them. -/
def State.bytesFor (s : State) (gr pa n : Nat) : List Byte :=
  if s.pend.any (·.grove == gr) then (List.range n).map fun i => s.byteFor gr (pa + i) else readBytes s.mem pa n

/-- A store of the grove of a party waits for its grant in one of some lines: the party's own access there comes after it
(R115, R116). -/
def State.storeAhead (s : State) (gr : Nat) (l : List LineUse) : Bool :=
  s.pend.any fun p => p.grove == gr && l.any (·.line == lineOf p.pa)

/-- The stores of a grove that wait in a line performed as far as they can be, oldest first; what is left. -/
def State.performPend (s : State) (gr line : Nat) (extra : Word) : List PendStore → List PendStore → State × List PendStore
  | left, [] => (s, left)
  | left, p :: t =>
    if p.grove == gr && lineOf p.pa == line && s.mayPerform extra left p then
      (s.storeBytes p.pa p.bytes).performPend gr line extra left t
    else s.performPend gr line extra (left ++ [p]) t

/-- The stores of a grove that wait in a line tried again after a grant; an instruction's store counts no longer once none of
its lanes waits (R84, R152). -/
def State.retryStores (s : State) (gr line : Nat) (extra : Word) : State :=
  let (s1, left) := s.performPend gr line extra [] s.pend
  let gone := s.pend.filter fun p => !left.any fun q => q.g == p.g && q.insn == p.insn
  (gone.map fun p => (p.g, p.insn)).dedup.foldl
    (fun (t : State) (x : Nat × Nat) => t.modGroup x.1 fun g => g.doneOp 1 x.2) { s1 with pend := left }

/-! ### Accesses of a group (R83, R84) -/

/-- A request put on its way to the homing slice. -/
def State.sendCoh (s : State) (q : CohReq) : State :=
  { s with coh := s.coh ++ [{ q with id := s.fresh }], fresh := s.fresh + 1 }

/-- A line asks to be pinned in the L2: HOME 0b10, or HOME 0b01 of a page that is pinned (R29, R75). -/
def State.l2Pins (s : State) (home : BitVec 2) (line : Nat) : Bool := home == 2 || (home == 1 && s.framePinned (line / 512))

/-- One line of a load or store at the grove's L1: hit or miss counted, the request that is missing queued (R83, R84). A store
allocates its line at once, a load when its data arrive (R61, R89). -/
def State.l1Use (s : State) (write : Bool) (u : LineUse) : State :=
  if u.home = 3 then s
  else
    let gr := groveOf s.g.core
    let s0 := if u.home = 1 then (s.pinPage s.g.ctx gr (u.line / 512) (u.vline / 512)).2 else s
    let pin := u.home == 2 || (u.home == 1 && (s0.grove gr).pinnedLine u.line)
    let g := s0.grove gr
    let miss := u.mask &&& ~~~(if write then g.wMask u.line else g.validMask u.line)
    let s1 := (s0.l1Count gr u.line (miss ≠ 0)).pmcAdd s.g.core (if miss = 0 then 0x21 else 0x22) 1
    let s2 := if write || g.holds u.line then s1.l1Touch gr u.line else s1
    let s3 := if write then s2.modGrove gr fun g => g.dirtyWords u else s2
    if miss = 0 then s3
    else
      let sp := spanOf miss
      s3.sendCoh { id := 0, grove := gr, line := u.line, first := sp.1, n := sp.2, write := write, cls := u.cls, pinned := pin,
                   ctx := s.g.ctx, vline := u.vline, g := s.g.key }

/-- The lines of an instruction at the L1. -/
def State.l1Access (s : State) (write : Bool) (l : List LineUse) : State := l.foldl (fun t u => t.l1Use write u) s

/-- One store of the focused group in its slice: performed at once when its words are granted or never cached, else it waits
for its grant (R29, R84). -/
def State.storeOne (s : State) (insn : Nat) (e : TlbEntry) (pa : Nat) (bs : List Byte) : State :=
  let p : PendStore :=
    { grove := groveOf s.g.core, g := s.g.key, insn := insn, pa := pa, bytes := bs, ctx := s.g.ctx
      vline := (e.vpage * e.size + pa % e.size) / 128, cls := e.cls, home := e.home }
  if e.home = 3 ∨ s.mayPerform 0 s.pend p = true then s.storeBytes pa bs else { s with pend := s.pend ++ [p] }

/-! ### Accesses at the homing slice (R91) -/

/-- A read at the homing slice: granted words are recalled and the line is looked up in the L2. -/
def State.homeRead (s : State) (ctx : Nat) (u : LineUse) : State :=
  if u.home = 3 then s
  else
    let s1 := match s.dirOf u.line with
      | .precise l => (l.filter fun (r : DirRec) => r.w && r.mask &&& u.mask ≠ 0).foldl
          (fun (t : State) (r : DirRec) => t.doRecall ctx r.grove u.line (r.mask &&& u.mask)) s
      | .broadcast .. => s
    (s1.l2Alloc ctx u.line u.vline u.cls (s1.l2Pins u.home u.line)).2

/-- A write at the homing slice: every L1 copy of the words is invalidated, and the words are dirty in the L2. -/
def State.homeWrite (s : State) (ctx : Nat) (u : LineUse) : State :=
  if u.home = 3 then s
  else
    let s1 := match s.dirOf u.line with
      | .precise l => (l.filter fun (r : DirRec) => r.mask &&& u.mask ≠ 0).foldl
          (fun (t : State) (r : DirRec) => t.doInv ctx r.grove u.line (r.mask &&& u.mask)) s
      | .broadcast .. => s.invAll ctx u.line
    ((s1.l2Alloc ctx u.line u.vline u.cls (s1.l2Pins u.home u.line)).2).l2Merge u.line u.mask

/-- A translation as far as the homing slice needs it. -/
def pieceEntry (pa ctx vline : Nat) (cls home : BitVec 2) : TlbEntry :=
  { ctx := ctx, gen := 0, size := 65536, vpage := vline / 512, frame := pa / 65536, cls := cls, home := home, x := false, w := true
    cow := false, shared := false }

/-- A whole line with its translation. -/
def lineUse (line : Nat) (e : TlbEntry) : LineUse :=
  { line := line, vline := (e.vpage * e.size + line * 128 % e.size) / 128, bytes := BitVec.allOnes 128, cls := e.cls, home := e.home }

/-- Bytes of a translated range read at the homing slices. -/
def State.homeReadAt (s : State) (ctx pa n : Nat) (e : TlbEntry) : State :=
  (linesOf [(pa, n, e)]).foldl (fun (t : State) (u : LineUse) => t.homeRead ctx u) s

/-- Bytes of a translated range written at the homing slices. -/
def State.homeWriteAt (s : State) (ctx pa : Nat) (bs : List Byte) (e : TlbEntry) : State :=
  ((linesOf [(pa, bs.length, e)]).foldl (fun (t : State) (u : LineUse) => t.homeWrite ctx u) s).storeBytes pa bs

/-- Bytes the device itself writes at a physical address (page-table entries, descriptors, records), at the homing slice. The
spec gives such lines no CLASS and no HOME: they are taken as general and HOME 0b00, as the walker's reads of table frames are
(R32; assumption log 80). -/
def State.devWrite (s : State) (ctx pa : Nat) (bs : List Byte) : State := s.homeWriteAt ctx pa bs (pieceEntry pa ctx 0 3 0)

/-! ### Walks (R24 to R26, R40, R41) -/

/-- What a walk on a die leaves behind: the entries it read from memory, read through the L2 as class general (R24, R32), and the
table entries among them entered in the walk cache, which holds 512 first in first out (R38; assumption log 8). -/
def State.walkTrace (s : State) (die : Nat) (c : Ctx) (va : Nat) : State :=
  let path := (walkPath (s.walkRead die c) va (c.base.toNat * 65536) 0 4).filter fun x => (s.walkHit die c x.2.1).isNone
  let new := (path.filter fun x => pteV x.2.2 && !pteLeaf x.2.2 && !malformed x.2.2 x.1).map fun x =>
    ({ ctx := c.num, gen := c.gen, level := x.1, ea := x.2.1, word := x.2.2 } : WalkEntry)
  let s1 := path.foldl (fun (t : State) (x : Nat × Nat × DWord) => t.homeReadAt c.num x.2.1 8 (pieceEntry x.2.1 c.num 0 3 0)) s
  s1.modDie die fun d =>
    let l := d.walkCache ++ new
    { d with walkCache := l.drop (l.length - 512) }

/-- The walker stamps a leaf by one write of the whole entry, where its GEN is not that of the root (R25). -/
def State.stamp (s : State) (c : Ctx) (ea : Nat) (e : DWord) : State :=
  if pteGen e == c.gen then s else s.devWrite c.num ea (bytesOfNat 8 (pteStamp e c.gen).toNat)

/-- One walk performed (R24 to R26, R40): the leaf stamped when some access that waits for it passes, and the caches filled,
also where the walk ends at the COW step. A walk that no longer passes leaves the access to find that out for itself. -/
def State.walk (s : State) (q : WalkReq) : State :=
  match s.ctx? q.ctx with
  | none => s
  | some c =>
    let s1 := s.walkTrace q.die c q.va.toNat
    match walkTable (s.walkRead q.die c) c q.va.toNat with
    | .leaf ea level e =>
      if pteHpend e || pteHown e then s1
      else
        let t := tlbOfLeaf c q.va.toNat level e
        let ends := q.kinds.map fun k => checkBits t q.va 0 k fun _ _ => 0
        if ends.any fun x => match x with | .hit .. => true | _ => false then (s1.stamp c ea e).fillTlb q t
        else if ends.any fun x => match x with | .raise r => r.code == .cow | _ => false then s1.fillTlb q t
        else s1
    | _ => s1

end Sys2Proof.Machine
end

