-- ==== Sys2Proof/Machine/Record.lean ====
section
/-! DEFINITION. The command journal (R433, R434, R501) and stop records (R384). -/

namespace Sys2Proof.Machine

/-- EVENT codes of R434. -/
inductive JEvent where
  | accepted | refused | completed | preempting | drained | saved | restored | reset | stop | terminate | handover | report
  deriving DecidableEq, Repr

/-- The code of an event (R434). -/
def JEvent.num : JEvent → Nat
  | .accepted => 1 | .refused => 2 | .completed => 3 | .preempting => 4 | .drained => 5 | .saved => 6 | .restored => 7
  | .reset => 8 | .stop => 9 | .terminate => 10 | .handover => 11 | .report => 12

/-- ERROR codes of R434. -/
inductive JError where
  | none | launchBadField | launchCoopCapacity | badContext | badRecord | badEntry | notHalted | noGroup | waiting | busy
  | badTimes | poolAccess
  deriving DecidableEq, Repr

/-- The code of an error (R434). -/
def JError.num : JError → Nat
  | .none => 0 | .launchBadField => 1 | .launchCoopCapacity => 2 | .badContext => 3 | .badRecord => 4 | .badEntry => 5
  | .notHalted => 6 | .noGroup => 7 | .waiting => 8 | .busy => 9 | .badTimes => 10 | .poolAccess => 11

/-- A journal entry before its SEQ and TIME (R434). -/
structure JEntry where
  event : JEvent
  ctx : Nat
  error : JError := .none
  status : Nat := 0xFF
  detail : Nat := 0
  obj : Nat := 0
  tag : DWord := 0
  deriving DecidableEq, Repr

/-- The 64 bytes of an entry (R434). -/
def JEntry.bytes (e : JEntry) (seq : Nat) (time : DWord) : List Byte :=
  bytesOfNat 8 (e.event.num + 2 ^ 24 * e.status + 2 ^ 32 * e.error.num + 2 ^ 48 * e.ctx) ++ bytesOfNat 16 0 ++
    bytesOfNat 8 seq ++ bytesOfNat 8 e.detail ++ bytesOfNat 8 e.obj ++ bytesOfNat 8 e.tag.toNat ++ bytesOfNat 8 time.toNat

/-- An entry written at its place in the journal; JHEAD moves on (R433). -/
def State.journal (s : State) (e : JEntry) : State :=
  let seq := s.dev.jseq
  let s1 := s.storeBytes (s.dev.jbase.toNat + 64 * (seq % 65536)) (e.bytes seq s.dev.time)
  { s1 with dev := { s1.dev with jseq := seq + 1 } }

/-! ### Units -/

/-- The unit of a key. -/
def Ctx.unit? (c : Ctx) (k : Nat) : Option UnitRec := c.units.find? (·.key == k)
/-- A unit changed. -/
def Ctx.modUnit (c : Ctx) (k : Nat) (f : UnitRec → UnitRec) : Ctx :=
  { c with units := c.units.map fun u => if u.key == k then f u else u }
/-- The job of a sequence number. -/
def Ctx.job? (c : Ctx) (seq : Nat) : Option JobRec := c.jobs.find? (·.seq == seq)
/-- A unit of a context changed. -/
def State.modUnit (s : State) (ctx k : Nat) (f : UnitRec → UnitRec) : State := s.modCtx ctx fun c => c.modUnit k f
/-- The unit of a team. -/
def State.unitOf (s : State) (t : Team) : Option UnitRec := (s.ctx? t.ctx).bind (·.unit? t.unit)
/-- The unit of a group. -/
def State.unitOfGroup (s : State) (g : Group) : Option UnitRec := (s.team? g.team).bind s.unitOf
/-- HOSTTAG of the job of a unit (R429). -/
def Ctx.tagOf (c : Ctx) (u : UnitRec) : DWord := match c.job? u.job with | some j => j.tag | none => 0

/-- OBJ of a group (R434). -/
def State.objOf (s : State) (g : Group) : Nat :=
  2 ^ 32 * (match s.unitOfGroup g with | some u => u.job | none => 0) + g.gid.toNat
/-- HOSTTAG of the job of a group. -/
def State.tagOfGroup (s : State) (g : Group) : DWord :=
  match s.ctx? g.ctx, s.unitOfGroup g with
  | some c, some u => c.tagOf u
  | _, _ => 0

/-! ### Stop records (R384) -/

/-- The bytes of a record (R384). -/
def StopRec.bytes (r : StopRec) : List Byte :=
  bytesOfNat 4 (r.state.toNat + 16 * r.cause.toNat + 256 * r.code.toNat + 65536 * r.ctx.toNat) ++
    bytesOfNat 4 r.gid.toNat ++ bytesOfNat 4 r.exec.toNat ++ bytesOfNat 4 r.cmask.toNat ++ bytesOfNat 8 r.pc.toNat ++
    bytesOfNat 4 r.detail.toNat ++ bytesOfNat 8 r.va.toNat ++
    bytesOfNat 4 (r.pbank.toNat + (if r.pend then 16 else 0) + 2 ^ 8 * r.emptyreg.toNat + 2 ^ 16 * r.reason.toNat +
      2 ^ 29 * r.agent.toNat) ++
    bytesOfNat 4 r.efsrc.toNat ++ bytesOfNat 4 r.rwrec.toNat ++ bytesOfNat 8 r.time.toNat ++ bytesOfNat 4 r.seq.toNat ++
    bytesOfNat 4 r.exitstat.toNat

/-- A record at its place in the ring of 4,096 of a context, whose reserved frames begin at `area` (R384; assumption log 13). -/
def State.ringWrite (s : State) (area : Option Nat) (r : StopRec) : State :=
  match area with
  | some f => s.storeBytes (f * 65536 + 64 * (r.seq.toNat % 4096)) r.bytes
  | none => s

/-- A record put in the context's ring with the next SEQ and the time (R384). -/
def State.addStop (s : State) (ctx : Nat) (r : StopRec) : State :=
  match s.ctx? ctx with
  | none => s
  | some c =>
    let x : StopRec := { r with seq := c.stopSeq, time := s.dev.time, ctx := BitVec.ofNat 16 ctx }
    (s.modCtx ctx fun c =>
      let l := c.stops ++ [x]
      { c with stops := l.drop (l.length - 4096), stopSeq := c.stopSeq + 1 }).ringWrite c.area x

/-- The STOP entries of records from the context that meet a condition (R384, R434). -/
def State.forwardStops (s : State) (ctx : Nat) (p : StopRec → Bool) : State :=
  match s.ctx? ctx with
  | none => s
  | some c =>
    (c.stops.filter p).foldl
      (fun (t : State) (r : StopRec) =>
        t.journal { event := .stop, ctx := ctx, detail := r.seq.toNat, obj := r.gid.toNat }) s

/-- The abandoned re-issue of a group (R235): its bank in its own array. -/
def State.pendBank (s : State) (g : Group) : Option Nat :=
  ((List.range 16).find? fun n => (s.bank (groveOf g.core) n).pending && (s.bank (groveOf g.core) n).owner == some g.key)

/-- A register of the group left empty without a producer (R141), in the coding of R384. -/
def Group.emptyReg (g : Group) : Nat :=
  match (List.range 96).find? fun r => g.isEmptyV r && !g.produces false r with
  | some r => r
  | none =>
    match (List.range 64).find? fun r => g.isEmptyS r && !g.produces true r with
    | some r => 0x80 + r
    | none => 0xFF

/-- The codes whose VA is a window offset, or an address of a translation (R375, R384). -/
def Raise.detailWord (r : Raise) : Word := if r.code.isTranslation then r.xdet else r.tcause

/-- The stop record of a group (R384): with `own` its own fault, else none. -/
def State.groupStop (s : State) (g : Group) (cause : Nat) (own : Option Raise) (code : Nat) : StopRec :=
  let pb := s.pendBank g
  { rwrec := g.rwrec
    efsrc := match own with | some r => (if r.code = .engineRequest then g.efsrc else 0) | none => 0
    reason := BitVec.ofNat 5 g.reason.num
    emptyreg := BitVec.ofNat 8 g.emptyReg
    pend := pb.isSome
    pbank := BitVec.ofNat 4 (pb.getD 0)
    va := match own with | some r => r.va | none => 0
    detail := match own with | some r => r.detailWord | none => 0
    pc := g.pc
    cmask := g.cmask
    exec := g.exec
    gid := g.gid
    code := BitVec.ofNat 8 code
    cause := BitVec.ofNat 4 cause
    state := BitVec.ofNat 4 g.stLeft.num }

end Sys2Proof.Machine
end

