-- ==== Sys2Proof/Machine/Life.lean ====
section
/-! DEFINITION. How groups, teams and the levels above them end: banks released, cancels, dependants, context slots and
completion (R249 to R253, R258, R338, R496, R501). -/

namespace Sys2Proof.Machine

/-- `f` acting for a group, after which the group in focus is in focus again. -/
def State.withFocus (s : State) (k : Nat) (f : State → State) : State :=
  let t := f (s.focus k)
  if s.g.live then t.focus s.g.key else t

/-! ### Banks -/

/-- The partner of a bank (R234). -/
def partnerOf (n : Nat) : Nat := n ^^^ 8

/-- An element of a bank: what is listed, else 0 or a free value (R234). -/
def Bank.elem (b : Bank) (i : Nat) : BitVec 80 :=
  SMap.get (match b.freeFrom with | some n => Config.freeElem (n + i) | none => 0) b.elems i

/-- An element written. -/
def Bank.setElem (b : Bank) (i : Nat) (x : BitVec 80) : Bank :=
  { b with elems := SMap.set (match b.freeFrom with | some n => Config.freeElem (n + i) | none => 0) b.elems i x }

/-- A bank's contents become unpredictable: every element is a free value from here on (R234; assumption log 17). -/
def State.freeBank (s : State) (a n : Nat) : State :=
  let c := s.freeCtr
  { s.modBank a n fun b => { b with elems := [], freeFrom := some c } with freeCtr := c + 4096 }

/-- A held partner is freed, its contents unpredictable (R234). -/
def State.freePartner (s : State) (a n : Nat) : State :=
  if (s.bank a n).paired then
    let ctx := (s.bank a n).lastCtx
    let s1 := (s.modBank a n fun b => { b with paired := false }).modBank a (partnerOf n) fun b =>
      { b with heldFor := none, lastCtx := ctx }
    s1.freeBank a (partnerOf n)
  else s

/-- A partner that a re-issue has claimed for a bank not yet paired is freed; its contents are as they were (R235). -/
def State.dropClaim (s : State) (a n : Nat) : State :=
  if !(s.bank a n).paired && (s.bank a (partnerOf n)).heldFor == some n then
    s.modBank a (partnerOf n) fun p => { p with heldFor := none }
  else s

/-- `rel` of a bank (R338, R231, R234). A bank that was paired keeps its own half, bits 39:0 of each A80 element (R208). A bank
without an owner has no step left that could end PENDING, so it ends here (R230), and with it a re-issue's claim (R235). -/
def State.releaseBank (s : State) (a n : Nat) : State :=
  ((s.dropClaim a n).freePartner a n).modBank a n fun b => { b with isSealed := true, owner := none, pending := false }

/-- Every bank a group owns, in every array, is released (R338). -/
def State.releaseAll (s : State) (k : Nat) : State :=
  s.arrays.foldl
    (fun (t : State) (p : Nat × ArrayUnit) =>
      p.2.banks.foldl
        (fun (t : State) (q : Nat × Bank) => if q.2.owner == some k then t.releaseBank p.1 q.1 else t) t) s

/-- The party of a tile operation's sidecar updates in fabric transactions. -/
def TileOp.sideParty (x : TileOp) : Nat := 2 ^ 65 + x.id

/-- A party has transactions in the fabric. -/
def State.hasTxns (s : State) (owner : Nat) : Bool := s.fab.any (·.owner == owner)

/-- A tile transfer has started (R351). -/
def State.topMid (s : State) (x : TileOp) : Bool := s.hasTxns x.id || s.hasTxns x.sideParty

/-- Operations of a group that wait in the array or the tile path are dropped (R122); a tile transfer that has started finishes its
tile (R351). -/
def State.dropTiles (s : State) (k : Nat) : State :=
  { s with
    tops := s.tops.filter fun x => x.g != k || s.topMid x
    arrays := s.arrays.map fun p =>
      (p.1, { p.2 with
        queue := p.2.queue.filter (·.g != k)
        started := match p.2.started with | some x => (if x.g == k then none else some x) | none => none }) }

/-! ### Contexts that run -/

/-- A save has been requested and is not over (R392). -/
def Ctx.isSaving (c : Ctx) : Bool := match c.preempt with | .saving .. => true | _ => false

/-- The context's engines, roots and arrays may start work: no halt, no save in progress. -/
def Ctx.running (c : Ctx) : Bool :=
  c.halt == .lowered && !c.debugHalt && c.cut.isNone &&
    (match c.preempt with | .none => true | .draining .. => true | .saving .. | .saved | .restoring => false)

/-- As `Ctx.running`, by number. -/
def State.ctxRuns (s : State) (ctx : Nat) : Bool := match s.ctx? ctx with | some c => c.running | none => false

/-! ### The end of a group -/

/-- The subscriptions of a team ended as by `rcancel` (R250). -/
def State.endSubs (s : State) (team : Nat) : State :=
  (s.subs.filter (·.team == team)).foldl (fun (t : State) (b : Sub) => t.cancelSub b) s

/-- Every group of a team has ended. -/
def State.teamOver (s : State) (team : Nat) : Bool := s.groups.all fun g => g.team != team || g.st == .ended

/-- No access of a team's groups is still to be performed: no store that waits for its grant, no queued atomic, no tile transfer, no
transaction in the fabric (R121, R252). -/
def State.teamQuiet (s : State) (team : Nat) : Bool :=
  let mine := (s.groups.filter (·.team == team)).map (·.key)
  !(s.pend.any fun p => mine.contains p.g) && !(s.groves.any fun p => p.2.svcq.any fun r => mine.contains r.g) &&
    !(s.tops.any (·.team == team)) && !s.fab.any fun x => mine.contains x.owner && x.resp.isNone

/-- A team has completed: its groups have ended, its engine operations and subscriptions too (R249), and all its accesses are
performed (R252). -/
def State.teamDone (s : State) (t : Team) : Bool :=
  s.teamOver t.key && !(s.engs.any (·.team == t.key)) && !(s.subs.any (·.team == t.key)) && s.teamQuiet t.key

/-- A group ends with a status: its monitor ends, its banks are released, its trace ends, its slot is free to choose
another, and the last group of a team ends its subscriptions (R168, R250, R338, R411). -/
def State.endGroup (s : State) (k : Nat) (st : UStatus) : State :=
  match s.group? k with
  | none => s
  | some g =>
    if g.st = .ended then s
    else
      let s1 := ((s.endMonitor k 6).dropTiles k).releaseAll k
      let s2 := s1.withFocus k fun t => t.traceEnd st.num
      let s3 := s2.modGroup k fun g =>
        { g with st := .ended, status := some st, reason := .none, wait := .none, cancelReq := false, freezeReq := false,
                 inProgress := false }
      let s4 := s3.mapGroups fun h => { h with held := h.held.erase k }
      let s5 := s4.modCore g.core fun c =>
        if SMap.get none c.current g.slot == some k then { c with current := SMap.set none c.current g.slot none } else c
      if s5.teamOver g.team then s5.endSubs g.team else s5

/-- A class of R190 by the class of an engine request. -/
def EngReq.cntClass (e : EngReq) : Nat := if e.cls = 0 then 2 else if e.cls = 1 then 4 else 5

/-- An engine request removed from its queue; the counter of its group falls (R190). -/
def State.dropEng (s : State) (e : EngReq) : State :=
  { (s.modGroup e.g fun g => g.doneOp e.cntClass e.id) with engs := s.engs.filter (·.id != e.id) }

/-- Engine requests that meet a condition stop without a cursor: those that run finish the unit in progress first, those
that wait are dropped (R253 step 4, R390). -/
def State.stopEngs (s : State) (p : EngReq → Bool) : State :=
  let s1 := (s.engs.filter fun e => p e && !e.running).foldl (fun (t : State) (e : EngReq) => t.dropEng e) s
  { s1 with engs := s1.engs.map fun e => if p e then { e with stopReq := true } else e }

/-- A group is cancelled (R253 step 2): a frozen one ends when it is released, any other ends with a stop record of
CAUSE 6 and code CANCELLED (R384). -/
def State.cancelGroup (s : State) (k : Nat) : State :=
  match s.group? k with
  | none => s
  | some g =>
    if g.st = .ended then s
    else if g.st = .frozen then s.modGroup k fun g => { g with cancelReq := true }
    else
      let r := s.groupStop { g with stLeft := if g.st = .stopped then g.stLeft else g.st } 6 (some { code := .cancelled }) Code.cancelled.num
      let seq := match s.ctx? g.ctx with | some c => c.stopSeq | none => 0
      let s1 := (s.addStop g.ctx r).journal
        { event := .stop, ctx := g.ctx, detail := seq.toNat, obj := s.objOf g, tag := s.tagOfGroup g }
      s1.endGroup k .cancelled

/-- A team is cancelled: its engine requests and subscriptions stop, its groups end (R253). -/
def State.cancelTeam (s : State) (team : Nat) : State :=
  let s1 := (s.stopEngs (·.team == team)).endSubs team
  (s1.groups.filter (·.team == team)).foldl (fun (t : State) (g : Group) => t.cancelGroup g.key) s1

/-! ### Frame descriptors (R18, R33) -/

/-- The descriptor of a frame (R33). -/
def fdtAt (frame : Nat) : Nat := Config.fdtBase + 16 * frame
/-- REFCNT of a frame. -/
def State.refcnt (s : State) (frame : Nat) : Nat := readNat s.mem (fdtAt frame + 8) 2
/-- CTX of a frame. -/
def State.frameCtx (s : State) (frame : Nat) : Nat := readNat s.mem (fdtAt frame + 10) 2
/-- LINK of a frame. -/
def State.frameLink (s : State) (frame : Nat) : Nat := readNat s.mem (fdtAt frame + 12) 4
/-- STATE of a frame: 0 FREE, 1 MAPPED, 2 TABLE, 3 RESERVED, 4 RETIRED. -/
def State.frameState (s : State) (frame : Nat) : Nat := readNat s.mem (fdtAt frame) 1 % 16
/-- REFCNT written. -/
def State.setRefcnt (s : State) (frame n : Nat) : State := { s with mem := writeNat s.mem (fdtAt frame + 8) 2 n }
/-- CTX written. -/
def State.setFrameCtx (s : State) (frame n : Nat) : State := { s with mem := writeNat s.mem (fdtAt frame + 10) 2 n }
/-- LINK written. -/
def State.setFrameLink (s : State) (frame n : Nat) : State := { s with mem := writeNat s.mem (fdtAt frame + 12) 4 n }
/-- STATE written. -/
def State.setFrameState (s : State) (frame n : Nat) : State :=
  { s with mem := writeNat s.mem (fdtAt frame) 1 (readNat s.mem (fdtAt frame) 1 / 16 * 16 + n) }

/-- The stack of a frame. -/
def stackOf (frame : Nat) : Nat := frame * 65536 / Config.stackSlot

/-- The frames whose descriptors have been written since reset. -/
def State.listedFrames (s : State) : List Nat :=
  ((s.mem.filter fun c => decide (Config.fdtBase ≤ c.1) && decide (c.1 < Config.fdtBase + Config.fdtBytes)).map fun c =>
    (c.1 - Config.fdtBase) / 16).eraseDups

/-- A frame is free and no context's. -/
def State.frameFree (s : State) (f : Nat) : Bool := inHbm (f * 65536) && s.frameState f == 0 && s.frameCtx f == 0

/-- The lowest run of `n` free frames: it begins a stack or follows a frame in use (assumption log 13). -/
def State.freeRun (s : State) (n : Nat) : Option Nat :=
  (orderBy ((List.range Config.numStacks).map (· * (Config.stackSlot / 65536)) ++
      (Config.fdtBase + Config.fdtBytes) / 65536 :: s.listedFrames.map (· + 1)) fun a b => a ≤ b).find? fun f =>
    (rangeFrom f n).all s.frameFree

/-- STATE of some frames written; a RETIRED frame stays so (R446). -/
def State.markFrames (s : State) (l : List Nat) (st : Nat) : State :=
  l.foldl (fun (t : State) (f : Nat) => if t.frameState f = 4 then t else t.setFrameState f st) s

/-! ### Accesses of the heartwood core and the pool engine (R431, R499) -/

/-- A handover command has put leaves of the context in RELEASING or ACQUIRING: the heartwood core and the pool engine make no access
by the context's tables before the command has ended (R26 step 1, R93; assumption log 85). -/
def State.hwHeld (s : State) (ctx : Nat) : Bool :=
  s.dev.ho.any fun p => p.2.code == 1 && p.2.begun && (p.2.ctl.extractLsb' 48 16).toNat == ctx

/-- A local-region address of a context translated by the heartwood core: the walk of its table in memory, none where it
fails translation or permission. -/
def State.hwAddr (s : State) (c : Ctx) (va : Nat) (kind : AccKind) : Option Nat :=
  if 2 ^ 54 ≤ va then none
  else
    match walkTable (readD s.mem) c va with
    | .leaf _ level e =>
      if pteHpend e || pteHown e then none
      else
        let t := tlbOfLeaf c va level e
        match checkBits t 0 (t.frame * 65536 + va % t.size) kind (fun _ _ => 0) with
        | .hit pa _ => some pa
        | _ => none
    | _ => none

/-- Bytes read by the heartwood core; none where the access fails or meets an uncorrectable word (R499). -/
def State.hwRead (s : State) (c : Ctx) (va : Nat) : Nat → Option (List Byte)
  | 0 => some []
  | n + 1 =>
    match s.hwAddr c va .read, s.hwRead c (va + 1) n with
    | some pa, some t => if s.eccBad pa 1 then none else some (readByte s.mem pa :: t)
    | _, _ => none

/-- A little-endian value read by the heartwood core. -/
def State.hwNat (s : State) (c : Ctx) (va n : Nat) : Option Nat := (s.hwRead c va n).map natOfBytes

/-- Bytes written by the heartwood core, all or none. -/
def State.hwWrite (s : State) (c : Ctx) (va : Nat) (bs : List Byte) : Option State :=
  let pas := (List.range bs.length).map fun i => s.hwAddr c (va + i) .write
  if pas.all (·.isSome) then
    some ((pas.zip bs).foldl (fun (t : State) (p : Option Nat × Byte) =>
      match p.1 with | some pa => t.storeBytes pa [p.2] | none => t) s)
  else none

/-- A COMPLETED entry (R434, R501). `team` is the team, record or TCB of level 0. -/
def Ctx.completedEntry (c : Ctx) (j : JobRec) (level idx num skip : Nat) (slot : Nat) (st : UStatus) (err : JError := .none)
    (team : Nat := 0) : JEntry :=
  { event := .completed, ctx := c.num, error := err, status := st.num,
    detail := level * 2 ^ 60 + idx * 2 ^ 48 + num * 2 ^ 32 + skip, obj := j.seq * 2 ^ 32 + slot * 2 ^ 25 + team * 2 ^ 5, tag := j.tag }

/-- The COMPLETED entry of a team, record or task of a unit (R251, R501; assumption log 30). -/
def State.journalTeam (s : State) (ctx k j : Nat) (st : UStatus) : State :=
  match (s.ctx? ctx).bind fun c => (c.unit? k).bind fun u => (c.job? u.job).map fun b => (c, u, b) with
  | none => s
  | some (c, u, b) => s.journal (c.completedEntry b 0 u.idx u.graph 0 (match u.slot with | some x => x.toNat | none => 0) st .none j)

/-! ### Task control blocks (R270 to R273) -/

/-- A field of `n` bits from bit `lo`. -/
def bitsN (x lo n : Nat) : Nat := x / 2 ^ lo % 2 ^ n

/-- A TCB is malformed (R294, R271). -/
def tcbMalformed (x : Nat) : Bool :=
  bitsN x 504 8 != 0 || bitsN x 350 34 != 0 || bitsN x 56 8 != 0 || bitsN x 0 2 != 0 || 6 < bitsN x 347 3 ||
    (bitsN x 346 1 == 1 && (bitsN x 347 3 != 0 || bitsN x 384 2 != 0 || bitsN x 468 36 != 0))

/-- STATUS of a TCB (R270). -/
def tcbStatus (x : Nat) : Nat := bitsN x 341 4

/-- TCB `i` of a pool read. -/
def State.tcbRead (s : State) (c : Ctx) (u : UnitRec) (i : Nat) : Option Nat :=
  if u.def_.cap < i then none else s.hwNat c (u.def_.tcbBase.toNat + 64 * i) 64

/-- Bits [383:320] of TCB `i` written: PEND, PRIO, GROUPS, STATUS and what stands above them (R270). -/
def State.tcbWriteMid (s : State) (c : Ctx) (u : UnitRec) (i x : Nat) : Option State :=
  s.hwWrite c (u.def_.tcbBase.toNat + 64 * i + 40) (bytesOfNat 8 (bitsN x 320 64))

/-- A TCB with another STATUS. -/
def tcbSetStatus (x st : Nat) : Nat := x - tcbStatus x * 2 ^ 341 + st % 16 * 2 ^ 341

/-- STATUS of TCB `i` written. -/
def State.tcbStatusWrite (s : State) (c : Ctx) (u : UnitRec) (i x st : Nat) : Option State :=
  s.tcbWriteMid c u i (tcbSetStatus x st)

/-- PRIO of TCB `i` as memory holds it. -/
def State.tcbPrio (s : State) (c : Ctx) (u : UnitRec) (i : Nat) : Nat :=
  match s.tcbRead c u i with | some x => bitsN x 336 2 | none => 0

/-- The ready queue with an index put at its place: PRIO highest first, then index lowest first (R272). -/
def readyInsert (prio : Nat → Nat) (i : Nat) : List Nat → List Nat
  | [] => [i]
  | j :: t => if prio j < prio i ∨ (prio j = prio i ∧ i < j) then i :: j :: t else j :: readyInsert prio i t

/-- The successors of a TCB, in list order (R270). -/
def State.tcbSuccs (s : State) (c : Ctx) (x : Nat) : Option (List Nat) :=
  if bitsN x 346 1 == 1 then
    ((List.range (bitsN x 448 20)).foldr (fun k (l : Option (List Nat)) =>
      match s.hwNat c (bitsN x 384 64 + 4 * k) 4, l with
      | some v, some t => some (v :: t)
      | _, _ => none) (some []))
  else some ((List.range (bitsN x 347 3)).map fun k => bitsN x (384 + 20 * k) 20)

/-- What the pool engine has still to do after a task (R273). -/
inductive PoolAct where
  /-- a successor of a task that ended DONE or not -/
  | succ (x : Nat) (done : Bool)
  /-- AUTOFREE and the live count of a task -/
  | fin (i : Nat)
  deriving DecidableEq, Repr

/-- A TCB pushed on the free stack when AUTOFREE = 1, and the live count lowered (R273). -/
def State.poolFin (s : State) (ctx : Nat) (c : Ctx) (u : UnitRec) (i : Nat) : Option State :=
  match s.tcbRead c u i with
  | none => none
  | some x =>
    let s1 : Option State :=
      if bitsN x 345 1 == 1 then
        match s.tcbStatusWrite c u i x 0, s.hwNat c (u.def_.descVA.toNat + 20) 4 with
        | some t, some w =>
          let ftop := w % 2 ^ 20
          match t.hwWrite c (u.def_.fsBase.toNat + 4 * ftop) (bytesOfNat 4 i) with
          | some t2 => t2.hwWrite c (u.def_.descVA.toNat + 20) (bytesOfNat 4 (w - ftop + (ftop + 1) % 2 ^ 20))
          | none => none
        | _, _ => none
      else some s
    s1.map fun t => t.modUnit ctx u.key fun u => { u with live := u.live - 1 }

/-- SUCC_SKIP raised, saturating (R273). -/
def State.succSkip (s : State) (ctx k : Nat) : State :=
  s.modUnit ctx k fun u => { u with succSkip := if u.succSkip == 0xFFFFFFFF then u.succSkip else u.succSkip + 1 }

/-- A TCB whose PEND is 0 becomes READY; a malformed one ends FAILED and its successors are to be processed (R271). -/
def State.tcbReady (s : State) (ctx : Nat) (c : Ctx) (u : UnitRec) (i x : Nat) : Option (State × List PoolAct) :=
  if tcbMalformed x then
    match s.tcbStatusWrite c u i x 7 with
    | none => none
    | some t =>
      let t1 := (t.journalTeam ctx u.key i .failed).modUnit ctx u.key fun u => { u with status := u.status.max .failed }
      match t1.tcbSuccs c x with
      | none => none
      | some l => some (t1, l.map (PoolAct.succ · false) ++ [.fin i])
  else
    (s.tcbStatusWrite c u i x 2).map fun t =>
      (t.modUnit ctx u.key fun w => { w with readyQ := readyInsert (t.tcbPrio c u) i w.readyQ }, [])

/-- One thing done; none when an access of the engine fails. The unit is looked up afresh each time. -/
def State.poolAct (s : State) (ctx k : Nat) (a : PoolAct) : Option (State × List PoolAct) :=
  match s.ctx? ctx with
  | none => some (s, [])
  | some c =>
    match c.unit? k with
    | none => some (s, [])
    | some u =>
      match a with
      | .fin i => (s.poolFin ctx c u i).map (·, [])
      | .succ x done =>
        if u.def_.cap < x then some (s.succSkip ctx k, [])
        else
          match s.tcbRead c u x with
          | none => none
          | some w =>
            if done then
              if tcbStatus w == 1 then
                let w' := if bitsN w 320 16 = 0 then w + 0xFFFF * 2 ^ 320 else w - 2 ^ 320
                match s.tcbWriteMid c u x w' with
                | none => none
                | some t => if bitsN w' 320 16 = 0 then t.tcbReady ctx c u x w' else some (t, [])
              else some (s.succSkip ctx k, [])
            else if tcbStatus w == 1 || tcbStatus w == 2 then
              match s.tcbStatusWrite c u x w 6 with
              | none => none
              | some t =>
                let t1 := (t.journalTeam ctx k x .cancelled).modUnit ctx k fun u =>
                  { u with status := u.status.max .cancelled, readyQ := u.readyQ.erase x }
                match t1.tcbSuccs c w with
                | none => none
                | some l => some (t1, l.map (PoolAct.succ · false) ++ [.fin x])
            else some (s.succSkip ctx k, [])

/-- A pool fails (R499): nothing more of it is placed, its running tasks are cancelled, every ARMED or READY TCB that can
still be written becomes CANCELLED. -/
def State.poolFail (s : State) (ctx k : Nat) : State :=
  let s1 := s.modUnit ctx k fun u =>
    { u with err := JError.poolAccess.num, status := .failed, cancelled := true, started := true, readyQ := [], live := 0 }
  let s2 := ((s1.allTeams.filter fun t => t.unit == k && t.ctx == ctx)).foldl (fun (t : State) (m : Team) => t.cancelTeam m.key) s1
  match (s2.ctx? ctx).bind fun c => (c.unit? k).map fun u => (c, u) with
  | none => s2
  | some (c, u) =>
    (List.range (u.def_.cap + 1)).foldl
      (fun (t : State) (i : Nat) =>
        match t.tcbRead c u i with
        | some x => if tcbStatus x == 1 || tcbStatus x == 2 then (t.tcbStatusWrite c u i x 6).getD t else t
        | none => t) s2

/-- The pool engine's work list carried out; a failed access fails the pool (R273, R499). -/
def State.poolRun (ctx k : Nat) : Nat → List PoolAct → State → State
  | 0, _, s => s
  | _, [], s => s
  | fuel + 1, a :: l, s =>
    match s.poolAct ctx k a with
    | none => s.poolFail ctx k
    | some (t, l') => State.poolRun ctx k fuel (l' ++ l) t

/-- More actions than any list of a pool can come to: 2^20 TCBs with up to 2^20 successors each. -/
def poolFuel : Nat := 2 ^ 42

/-- A task's team has completed (R273): the final state is written, then its successors, AUTOFREE and the live count. -/
def State.taskDone (s : State) (ctx k i : Nat) (st : UStatus) : State :=
  match (s.ctx? ctx).bind fun c => (c.unit? k).map fun u => (c, u) with
  | none => s
  | some (c, u) =>
    let s0 := (s.journalTeam ctx k i st).modUnit ctx k fun u => { u with status := u.status.max st, retries := SMap.set 0 u.retries i 0 }
    match s0.tcbRead c u i with
    | none => if u.err = 0 then s0.poolFail ctx k else s0
    | some x =>
      match s0.tcbStatusWrite c u i x (4 + st.num) with
      | none => if u.err = 0 then s0.poolFail ctx k else s0
      | some t =>
        if u.err ≠ 0 then t
        else
          match t.tcbSuccs c x with
          | none => t.poolFail ctx k
          | some l => State.poolRun ctx k poolFuel (l.map (PoolAct.succ · (st == .done)) ++ [.fin i]) t

/-- An ARMED or READY TCB cancelled, with its successors (R293). -/
def State.taskCancel (s : State) (ctx k i : Nat) : State := State.poolRun ctx k poolFuel [.succ i false] s

/-! ### Units -/

/-- The producer an edge of a unit names (R257). -/
def Ctx.producer? (c : Ctx) (u : UnitRec) (e : Edge) : Option UnitRec :=
  c.units.find? fun p => p.job == u.job && p.graph == u.graph && p.idx == e.prod

/-- The producer teams that team `j` waits on through a RANGE edge (R258): first and one past last. -/
def Edge.teams (e : Edge) (j np : Nat) : Nat × Nat :=
  let lo : Int := (j * e.stride : Nat) + e.offset
  ((max lo 0).toNat, (min (lo + e.width) np).toNat)

/-- How a team of a unit ended. -/
def UnitRec.endOf (u : UnitRec) (j : Nat) : Option UStatus :=
  match SMap.get none u.ended j with
  | some st => some st
  | none => match u.complete with | some st => some st | none => none

/-- Team `j` has not been placed and has not ended. -/
def State.unplaced (s : State) (u : UnitRec) (j : Nat) : Bool :=
  (SMap.get none u.ended j).isNone && !s.allTeams.any fun t => t.unit == u.key && t.idx.toNat == j

/-- Team `j` of a unit is eligible (R258): the edges' producers have ended. A unit that is no launch has WHOLE edges. -/
def Ctx.eligible (c : Ctx) (u : UnitRec) (j : Nat) : Bool :=
  u.edges.all fun e =>
    match c.producer? u e with
    | none => true
    | some p =>
      if e.range then
        let r := e.teams j p.def_.teams
        (rangeFrom r.1 (r.2 - r.1)).all fun k => (p.endOf k).isSome
      else p.complete.isSome

/-- How the producer teams ended that team `j` of a launch waits on through RANGE edges, of those that have ended (R258). -/
def Ctx.rangeEnds (c : Ctx) (u : UnitRec) (j : Nat) : List UStatus :=
  u.edges.flatMap fun e =>
    match c.producer? u e with
    | none => []
    | some p =>
      let r := e.teams j p.def_.teams
      if e.range then (rangeFrom r.1 (r.2 - r.1)).filterMap p.endOf else []

/-- A team of a launch waits on a producer team that ended with a status other than DONE (R258). -/
def Ctx.poisoned (c : Ctx) (u : UnitRec) (j : Nat) : Bool := (c.rangeEnds u j).any (· != .done)

/-- A launch whose team range depends on a cancelled team is cancelled whole (R253 step 5; assumption log 86). -/
def Ctx.rangeCancelled (c : Ctx) (u : UnitRec) : Bool :=
  u.def_.kind == 0 && u.edges.any (·.range) && (List.range u.def_.teams).any fun j => (c.rangeEnds u j).contains .cancelled

/-- A WHOLE producer of a unit ended with a status other than DONE (R258). -/
def Ctx.orphaned (c : Ctx) (u : UnitRec) : Bool :=
  u.edges.any fun e =>
    match c.producer? u e with
    | none => false
    | some p => !e.range && (match p.complete with | some st => st != .done | none => false)

/-- A team, record or task of a unit has ended for good. -/
def UnitRec.endTeam (u : UnitRec) (j : Nat) (st : UStatus) : UnitRec :=
  { u with ended := SMap.set none u.ended j (some st), status := u.status.max st }

/-- A team or record of a unit ends: it is counted, and the host learns its status (R249, R251). -/
def State.endMember (s : State) (ctx k j : Nat) (st : UStatus) : State :=
  (s.journalTeam ctx k j st).modUnit ctx k fun u => u.endTeam j st

/-- A unit is cancelled (R253): nothing more of it is placed, and its teams stop. ARMED and READY TCBs of a pool become
CANCELLED. -/
def State.cancelUnit (s : State) (ctx k : Nat) : State :=
  match (s.ctx? ctx).bind fun c => (c.unit? k).map fun u => (c, u) with
  | none => s
  | some (c, u) =>
    if u.complete.isSome || u.cancelled then s
    else
      let mine := s.allTeams.filter fun t => t.unit == k && t.ctx == ctx
      let rest := u.def_.kind == 2 || decide (u.ended.length + mine.length < (if u.def_.kind = 0 then u.def_.teams else u.def_.nrec)) ||
        mine.any fun t => match t.chunk with | some (a, b) => decide (a < b) | none => false
      let s1 := s.modUnit ctx k fun u =>
        { u with cancelled := true, status := if rest then u.status.max .cancelled else u.status, readyQ := [], replace := [] }
      let s2 :=
        if u.def_.kind = 2 then
          if !u.started then s1.modUnit ctx k fun u => { u with started := true, live := 0 }
          else
            (List.range (u.def_.cap + 1)).foldl
              (fun (t : State) (i : Nat) =>
                match t.tcbRead c u i with
                | some x =>
                  if tcbStatus x == 1 || tcbStatus x == 2 then
                    match t.tcbStatusWrite c u i x 6 with
                    | some t' => t'.modUnit ctx k fun u => { u with live := u.live - 1 }
                    | none => t.poolFail ctx k
                  else t
                | none => t.poolFail ctx k) s1
        else s1.mapTeams fun t => if t.live && t.unit == k && t.ctx == ctx then { t with chunk := none } else t
      mine.foldl (fun (t : State) (m : Team) => t.cancelTeam m.key) s2

/-- Everything of a unit has ended. -/
def State.unitOver (s : State) (u : UnitRec) : Bool :=
  let noTeam := !s.allTeams.any fun t => t.unit == u.key
  match u.def_.kind with
  | 0 => u.ended.length == u.def_.teams || (u.cancelled && noTeam)
  | 1 => (u.ended.length == u.def_.nrec || u.cancelled) && noTeam
  | _ => u.started && noTeam && (u.live == 0 || u.err != 0)

/-- The lowest context slot that no unit holds (R496). -/
def Ctx.freeSlot (c : Ctx) : Option Nat :=
  (List.range 128).find? fun n => !c.units.any fun u => u.slot == some (BitVec.ofNat 7 n)

/-- The highest status of some units (R251). -/
def maxStatus (l : List UnitRec) : UStatus := l.foldl (fun st u => st.max u.status) .done

/-- What settles first for a job of a context: a unit, a graph, the phase, the job (R249, R256 stage 5). -/
def State.settleJob (s : State) (c : Ctx) (j : JobRec) : Option State :=
  let mine := c.units.filter (·.job == j.seq)
  match mine.find? fun u => u.complete.isNone && s.unitOver u with
  | some u =>
    let s1 := s.journal (c.completedEntry j 1 u.idx u.graph (if u.def_.kind = 2 then u.succSkip.toNat else 0)
      (match u.slot with | some x => x.toNat | none => 0) u.status (if u.err = 0 then .none else .poolAccess))
    some (s1.modUnit c.num u.key fun u => { u with complete := some u.status, slot := none })
  | none =>
    match (List.range j.graphPhase.length).find? fun g =>
      !j.graphDone.contains g && (mine.filter (·.graph == g)).all (·.complete.isSome) with
    | some g =>
      let s1 := s.journal (c.completedEntry j 2 0 g 0 0 (maxStatus (mine.filter (·.graph == g))))
      some (s1.modCtx c.num fun c => { c with jobs := c.jobs.map fun x =>
        if x.seq == j.seq then { x with graphDone := x.graphDone ++ [g] } else x })
    | none =>
      if j.phase < j.phases then
        if (List.range j.graphPhase.length).all fun g => j.graphPhase.getD g 0 != j.phase || j.graphDone.contains g then
          let s1 := s.journal (c.completedEntry j 3 0 j.phase 0 0 (maxStatus (mine.filter (·.phase == j.phase))))
          some (s1.modCtx c.num fun c => { c with jobs := c.jobs.map fun x =>
            if x.seq == j.seq then { x with phase := x.phase + 1 } else x })
        else none
      else
        let s1 := s.journal (c.completedEntry j 4 0 0 0 0 (maxStatus mine))
        some (s1.modCtx c.num fun c =>
          { c with jobs := c.jobs.filter (·.seq != j.seq), units := c.units.filter (·.job != j.seq) })

/-- What settles first in a context: dependants of units that failed, then completions, then context slots. -/
def State.settle1 (s : State) (n : Nat) : Option State :=
  match s.ctx? n with
  | none => none
  | some c =>
    match c.units.find? fun u => u.complete.isNone && !u.cancelled && (c.orphaned u || c.rangeCancelled u) with
    | some u => some (s.cancelUnit n u.key)
    | none =>
      match c.units.find? fun u => u.complete.isNone && u.def_.kind == 0 && u.edges.any (·.range) &&
          (List.range u.def_.teams).any fun j => s.unplaced u j && c.poisoned u j with
      | some u =>
        let js := (List.range u.def_.teams).filter fun j => s.unplaced u j && c.poisoned u j
        some (js.foldl (fun (t : State) (j : Nat) => t.endMember n u.key j .cancelled) s)
      | none =>
        match (c.jobs.filter (·.complete.isNone)).findSome? (s.settleJob c) with
        | some t => some t
        | none =>
          match c.units.find? fun u => u.slot.isNone && u.complete.isNone &&
              (match c.job? u.job with | some j => j.phase == u.phase | none => false), c.freeSlot with
          | some u, some k => some (s.modUnit n u.key fun u => { u with slot := some (BitVec.ofNat 7 k) })
          | _, _ => none

/-- Settled as far as `fuel` allows. -/
def State.settleN (n : Nat) : Nat → State → State
  | 0, s => s
  | k + 1, s => match s.settle1 n with | none => s | some t => State.settleN n k t

/-- Everything that follows from ended teams of a context (R249, R252, R258, R496): each unit settles at most four times,
each graph, phase and job once. -/
def State.settle (s : State) (n : Nat) : State :=
  match s.ctx? n with
  | none => s
  | some c =>
    State.settleN n (8 + 6 * c.units.length + (c.jobs.map fun j => 1 + j.phases + j.graphPhase.length).sum) s

end Sys2Proof.Machine
end

