-- ==== Sys2Proof/Machine/Num.lean ====
section
/-! DEFINITION. Number formats and rounding (R203 to R217): values are exact, and a result is rounded once. -/

namespace Sys2Proof.Machine

/-! ### Values -/

/-- A value: NaN with its sign and the fraction it came with (`none` for a default NaN), an infinity, or
`± m × 2^e` exactly. -/
inductive Val where
  | nan (src : Option (Bool × Nat × Nat))
  | inf (neg : Bool)
  | fin (neg : Bool) (m : Nat) (e : Int)
  deriving DecidableEq, Repr

/-- Is a NaN. -/
def Val.isNan : Val → Bool
  | .nan _ => true
  | _ => false

/-- Is a zero. -/
def Val.isZero : Val → Bool
  | .fin _ 0 _ => true
  | _ => false

/-- The sign. -/
def Val.neg : Val → Bool
  | .nan none => false
  | .nan (some x) => x.1
  | .inf n => n
  | .fin n _ _ => n

/-- An integer as a value. -/
def Val.ofInt (x : Int) : Val := .fin (decide (x < 0)) x.natAbs 0

/-- The value with the opposite sign. -/
def Val.negate : Val → Val
  | .nan none => .nan none
  | .nan (some (s, f, w)) => .nan (some (!s, f, w))
  | .inf n => .inf (!n)
  | .fin n m e => .fin (!n) m e

/-- The magnitude. -/
def Val.abs : Val → Val
  | .nan x => .nan x
  | .inf _ => .inf false
  | .fin _ m e => .fin false m e

/-- `m × 2^e` brought to the lower exponent `f`. -/
def alignTo (m : Nat) (e f : Int) : Nat := m * 2 ^ (e - f).toNat

/-- Exact signed sum of two dyadic values at their lower exponent. -/
def sumInt (n1 : Bool) (m1 : Nat) (e1 : Int) (n2 : Bool) (m2 : Nat) (e2 : Int) : Int :=
  let f := min e1 e2
  (if n1 then -(alignTo m1 e1 f : Int) else alignTo m1 e1 f) + (if n2 then -(alignTo m2 e2 f : Int) else alignTo m2 e2 f)

/-- Exact sum (R311, R214): the first NaN operand; ∞ − ∞ is the default NaN; an exact zero sum of opposite signs is +0,
and −0 under RDN. -/
def Val.add (rnd : Nat) : Val → Val → Val
  | .nan x, _ => .nan x
  | _, .nan y => .nan y
  | .inf a, .inf b => if a = b then .inf a else .nan none
  | .inf a, .fin .. => .inf a
  | .fin .., .inf b => .inf b
  | .fin n1 m1 e1, .fin n2 m2 e2 =>
    let v := sumInt n1 m1 e1 n2 m2 e2
    if v = 0 then
      if n1 = n2 ∧ m1 = 0 ∧ m2 = 0 then .fin n1 0 0 else .fin (rnd == 3) 0 0
    else .fin (decide (v < 0)) v.natAbs (min e1 e2)

/-- Exact product (R311): 0 × ∞ is the default NaN. -/
def Val.mul : Val → Val → Val
  | .nan x, _ => .nan x
  | _, .nan y => .nan y
  | .inf a, .inf b => .inf (a != b)
  | .inf a, .fin n m _ => if m = 0 then .nan none else .inf (a != n)
  | .fin n m _, .inf b => if m = 0 then .nan none else .inf (n != b)
  | .fin n1 m1 e1, .fin n2 m2 e2 => .fin (n1 != n2) (m1 * m2) (e1 + e2)

/-- Multiplied by a power of two. -/
def Val.scale (k : Int) : Val → Val
  | .fin n m e => .fin n m (e + k)
  | x => x

/-- Order of two values; none when one is NaN; +0 equals −0 (R309). -/
def Val.cmp : Val → Val → Option Ordering
  | .nan _, _ => none
  | _, .nan _ => none
  | .inf a, .inf b => some (if a = b then .eq else if a then .lt else .gt)
  | .inf a, .fin .. => some (if a then .lt else .gt)
  | .fin .., .inf b => some (if b then .gt else .lt)
  | .fin n1 m1 e1, .fin n2 m2 e2 =>
    let v := sumInt n1 m1 e1 (!n2) m2 e2
    some (if v = 0 then .eq else if v < 0 then .lt else .gt)

/-- `floor(log2 |x|)` of a finite nonzero value. -/
def Val.ilog2 : Val → Int
  | .fin _ m e => (m.log2 : Int) + e
  | _ => 0

/-! ### Formats -/

/-- The kinds of formats: integers, IEEE formats, accumulator formats, narrow formats. -/
inductive FKind where
  | int | ieee | acc | narrow
  deriving DecidableEq, Repr

/-- A format (R203, R205, R207, R208). Integers use `sgn` and `width` alone. -/
structure FFmt where
  kind : FKind
  width : Nat
  sgn : Bool
  ew : Nat := 0
  mw : Nat := 0
  bias : Int := 0
  spec : Nat := 2
  sblk : Bool := false
  den : Bool := true
  deriving DecidableEq, Repr

/-- An integer format. -/
def intFmt (w : Nat) (signed : Bool) : FFmt := { kind := .int, width := w, sgn := signed }
/-- f64 -/
def f64 : FFmt := { kind := .ieee, width := 64, sgn := true, ew := 11, mw := 52, bias := 1023 }
/-- f32 -/
def f32 : FFmt := { kind := .ieee, width := 32, sgn := true, ew := 8, mw := 23, bias := 127 }
/-- f16 -/
def f16 : FFmt := { kind := .ieee, width := 16, sgn := true, ew := 5, mw := 10, bias := 15 }
/-- bf16 -/
def bf16 : FFmt := { kind := .ieee, width := 16, sgn := true, ew := 8, mw := 7, bias := 127 }
/-- A40 (R207) -/
def a40 : FFmt := { kind := .acc, width := 40, sgn := true, ew := 8, mw := 31, bias := 127 }
/-- A80 (R208) -/
def a80 : FFmt := { kind := .acc, width := 80, sgn := true, ew := 15, mw := 64, bias := 16383 }

/-- The narrow format a format register holds (R133). -/
def narrowFmt (r : Word) : FFmt :=
  let sgn := r.getLsbD 6
  let ew := (r.extractLsb' 3 3).toNat
  let mw := (r.extractLsb' 0 3).toNat
  { kind := .narrow, width := (if sgn then 1 else 0) + ew + mw, sgn := sgn, ew := ew, mw := mw,
    bias := sextN (r.extractLsb' 8 8).toNat 8, spec := (r.extractLsb' 17 2).toNat, sblk := r.getLsbD 19,
    den := r.getLsbD 20 }

/-- A format register that names no format (R133). -/
def unsetFmt (r : Word) : Bool := r.extractLsb' 0 7 == 0

/-- Integers and SPEC 3. -/
def FFmt.fixed (f : FFmt) : Bool := f.kind == .int || (f.kind == .narrow && f.spec == 3)
/-- The quantum exponent of a fixed format (R209). -/
def FFmt.fixedQ (f : FFmt) : Int := if f.kind = .int then 0 else -f.bias
/-- Bits that hold a fixed value. -/
def FFmt.fixedBits (f : FFmt) : Nat := if f.kind = .int then f.width else if f.sgn then 1 + f.mw else f.mw
/-- Lowest value of a fixed format, in quanta. -/
def FFmt.lo (f : FFmt) : Int := if f.sgn then -(2 ^ (f.fixedBits - 1) : Nat) else 0
/-- Highest value of a fixed format, in quanta. -/
def FFmt.hi (f : FFmt) : Int := if f.sgn then (2 ^ (f.fixedBits - 1) : Nat) - 1 else (2 ^ f.fixedBits : Nat) - 1
/-- The top exponent field. -/
def FFmt.etop (f : FFmt) : Nat := 2 ^ f.ew - 1
/-- The format has infinities (R205). -/
def FFmt.hasInf (f : FFmt) : Bool := !f.fixed && (f.kind != .narrow || f.spec == 2)
/-- The format has a NaN code (R206, R215). -/
def FFmt.hasNan (f : FFmt) : Bool :=
  !f.fixed && (f.kind != .narrow || f.spec == 1 || (f.spec == 2 && decide (1 ≤ f.mw)))
/-- Exponent of the smallest normal magnitude. -/
def FFmt.emin (f : FFmt) : Int := 1 - f.bias
/-- The magnitude code of the largest finite value. -/
def FFmt.maxCode (f : FFmt) : Nat :=
  if f.hasInf then (f.etop - 1) * 2 ^ f.mw + (2 ^ f.mw - 1)
  else if f.spec = 1 then f.etop * 2 ^ f.mw + (2 ^ f.mw - 1) - 1
  else f.etop * 2 ^ f.mw + (2 ^ f.mw - 1)
/-- The magnitude of a finite code, as `m × 2^e` (R205). -/
def FFmt.magOf (f : FFmt) (c : Nat) : Nat × Int :=
  let e := c / 2 ^ f.mw
  let m := c % 2 ^ f.mw
  if e = 0 then (m, f.emin - f.mw) else (2 ^ f.mw + m, (e : Int) - f.bias - f.mw)
/-- The sign bit of a code. -/
def FFmt.signBit (f : FFmt) (neg : Bool) : Nat := if f.sgn && neg then 2 ^ (f.ew + f.mw) else 0

/-- `m1 × 2^e1 > m2 × 2^e2`. -/
def magGt (m1 : Nat) (e1 : Int) (m2 : Nat) (e2 : Int) : Bool :=
  let f := min e1 e2
  decide (alignTo m2 e2 f < alignTo m1 e1 f)

/-- A format whose largest finite magnitude exceeds that of f32 (R205). -/
def FFmt.wideRange (f : FFmt) : Bool :=
  if f.kind = .int then false
  else if f.fixed then
    magGt (max f.hi.natAbs f.lo.natAbs) f.fixedQ (f32.magOf f32.maxCode).1 (f32.magOf f32.maxCode).2
  else magGt (f.magOf f.maxCode).1 (f.magOf f.maxCode).2 (f32.magOf f32.maxCode).1 (f32.magOf f32.maxCode).2

/-- The value of a code (R203, R205, R207, R208); with `ftz`, IEEE subnormals read as zeros (R213). A NaN of a narrow format carries
its mantissa below a leading 1, as in f32 (R215). -/
def FFmt.decode (f : FFmt) (ftz : Bool) (code : Nat) : Val :=
  let c := code % 2 ^ f.width
  if f.fixed then
    let x : Int := if f.sgn then sextN c f.fixedBits else c
    .fin (decide (x < 0)) x.natAbs f.fixedQ
  else
    let neg := f.sgn && decide (2 ^ (f.ew + f.mw) ≤ c)
    let mag := c % 2 ^ (f.ew + f.mw)
    let e := mag / 2 ^ f.mw
    let m := mag % 2 ^ f.mw
    if f.hasInf && e == f.etop then
      if m = 0 then .inf neg
      else if f.kind == .narrow then .nan (some (neg, 2 ^ f.mw + m, f.mw + 1))
      else .nan (some (neg, m, f.mw))
    else if f.kind == .narrow && f.spec == 1 && mag == 2 ^ (f.ew + f.mw) - 1 then .nan (some (neg, 2 ^ f.mw + m, f.mw + 1))
    else
      let (a, x) := f.magOf mag
      if ftz && f.kind == .ieee && e == 0 then .fin neg 0 0 else .fin neg a x

/-! ### Rounding (R209, R210) -/

/-- The threshold table of R210: the 5-bit bit-reversal of its index. -/
def ditherP (i : Nat) : Nat :=
  i % 2 * 16 + i / 2 % 2 * 8 + i / 4 % 2 * 4 + i / 8 % 2 * 2 + i / 16 % 2

/-- Whether the magnitude rounds up: `rem` of `2^k` discarded, with `st` when the exact value lies a little higher. -/
def roundsUp (rnd : Nat) (neg : Bool) (theta lo rem k : Nat) (st : Bool) : Bool :=
  if rem = 0 ∧ st = false then false
  else
    match rnd with
    | 1 => false
    | 2 => !neg
    | 3 => neg
    | 4 =>
      let q := 32 * rem / 2 ^ k
      decide (theta < q) || (q == theta && (32 * rem % 2 ^ k != 0 || st))
    | _ => decide (2 ^ k < 2 * rem) || (2 * rem == 2 ^ k && (st || lo % 2 == 1))

/-- `m × 2^e` (a little more when `st`) as a multiple of `2^q`, rounded. -/
def roundMag (rnd : Nat) (neg : Bool) (theta m : Nat) (e : Int) (st : Bool) (q : Int) : Nat :=
  if q ≤ e then alignTo m e q
  else
    let k := (q - e).toNat
    let lo := m / 2 ^ k
    if roundsUp rnd neg theta lo (m % 2 ^ k) k st then lo + 1 else lo

/-! ### Into a format -/

/-- How a result is rounded: mode, SAT, FTZ, the threshold of R210. -/
structure Rnd where
  rnd : Nat := 0
  sat : Bool := false
  ftz : Bool := false
  theta : Nat := 0
  deriving DecidableEq, Repr

/-- DITHER taken as RNE (R212). -/
def Rnd.plain (r : Rnd) : Rnd := { r with rnd := if r.rnd = 4 then 0 else r.rnd }

/-- A result: its code, and what R227 asks about it. -/
structure Coded where
  code : Nat
  /-- an overflow or a saturation -/
  ovf : Bool := false
  /-- a tiny value flushed -/
  flushed : Bool := false
  /-- Inf or NaN -/
  special : Bool := false
  deriving DecidableEq, Repr

/-- The default NaN of an IEEE or accumulator format (R207, R214). -/
def FFmt.defaultNan (f : FFmt) : Nat := f.etop * 2 ^ f.mw + 2 ^ (f.mw - 1)

/-- A NaN into a format (R214, R215, R216). -/
def FFmt.nanCode (f : FFmt) (src : Option (Bool × Nat × Nat)) : Nat :=
  if f.fixed then 0
  else
    match f.kind with
    | .acc => f.defaultNan
    | .ieee =>
      match src with
      | none => f.defaultNan
      | some (neg, frac, fw) =>
        let t := if f.mw ≤ fw then frac / 2 ^ (fw - f.mw) else frac * 2 ^ (f.mw - fw)
        f.signBit neg + f.etop * 2 ^ f.mw + (t ||| 2 ^ (f.mw - 1))
    | _ =>
      let (neg, t) := match src with
        | none => (false, 2 ^ 22)
        | some (neg, frac, fw) => (neg, if 23 ≤ fw then frac / 2 ^ (fw - 23) else frac * 2 ^ (23 - fw))
      match f.spec with
      | 2 =>
        if f.mw = 0 then f.signBit neg + f.etop
        else
          let m := t / 2 ^ (22 - f.mw) % 2 ^ f.mw
          f.signBit neg + f.etop * 2 ^ f.mw + (if m = 0 then 1 else m)
      | 1 => f.signBit neg + 2 ^ (f.ew + f.mw) - 1 + (if f.ew + f.mw = 0 then 1 else 0)
      | _ => 0

/-- The magnitude code of `n × 2^q`, not above the largest finite. -/
def FFmt.magCode (f : FFmt) (n : Nat) (q : Int) : Nat :=
  let n' := if n = 2 ^ (f.mw + 1) then 2 ^ f.mw else n
  let q' := if n = 2 ^ (f.mw + 1) then q + 1 else q
  if n' < 2 ^ f.mw then n' else (q' + f.mw + f.bias).toNat * 2 ^ f.mw + (n' - 2 ^ f.mw)

/-- A finite overflow of a float target (R212). -/
def FFmt.overflow (f : FFmt) (r : Rnd) (neg : Bool) : Coded :=
  let top : Coded := { code := f.signBit neg + f.maxCode, ovf := true }
  if r.sat then top
  else if f.hasInf then
    let toInf := r.rnd == 0 || r.rnd == 4 || (r.rnd == 2 && !neg) || (r.rnd == 3 && neg)
    if toInf then { code := f.signBit neg + f.etop * 2 ^ f.mw, ovf := true, special := true } else top
  else if f.spec = 1 then
    { code := f.signBit neg + (2 ^ (f.ew + f.mw) - 1), ovf := true, special := true }
  else top

/-- An infinite source (R212, R216). -/
def FFmt.infCode (f : FFmt) (r : Rnd) (neg : Bool) : Coded :=
  if f.fixed then { code := lowBits f.fixedBits (if neg then f.lo else f.hi), ovf := true }
  else if f.hasInf then { code := f.signBit neg + f.etop * 2 ^ f.mw, special := true }
  else if f.spec = 1 ∧ r.sat = false then
    { code := f.signBit neg + (2 ^ (f.ew + f.mw) - 1), ovf := true, special := true }
  else { code := f.signBit neg + f.maxCode, ovf := true }

/-- A tiny magnitude of a target that gives a zero (R213). -/
def FFmt.flushes (f : FFmt) (r : Rnd) (m : Nat) (e : Int) (st : Bool) : Bool :=
  match f.kind with
  | .ieee => r.ftz
  | .narrow =>
    let q := f.emin - f.mw
    !f.den && decide (e < q) && (m % 2 ^ (q - e).toNat != 0 || st)
  | _ => false

/-- A finite magnitude rounded into a float target (R209, R212, R213). -/
def FFmt.encodeFin (f : FFmt) (r : Rnd) (neg : Bool) (m : Nat) (e : Int) (st : Bool) : Coded :=
  if m = 0 ∧ st = false then { code := f.signBit neg }
  else
    let lg := (m.log2 : Int) + e
    if lg < f.emin ∧ f.flushes r m e st then { code := f.signBit neg, flushed := true }
    else
      let q := max lg f.emin - f.mw
      let n := roundMag r.rnd neg r.theta m e st q
      if magGt n q (f.magOf f.maxCode).1 (f.magOf f.maxCode).2 then f.overflow r neg
      else { code := f.signBit neg + f.magCode n q }

/-- A finite value into an integer or SPEC 3 target. `isInt` says the source is an integer and the target is one: R212's
last row. -/
def FFmt.encodeFixed (f : FFmt) (r : Rnd) (isInt : Bool) (neg : Bool) (m : Nat) (e : Int) (st : Bool) : Coded :=
  let n := roundMag r.rnd neg r.theta m e st f.fixedQ
  let x : Int := if neg then -n else n
  if f.lo ≤ x ∧ x ≤ f.hi then { code := lowBits f.fixedBits x }
  else if isInt && !r.sat then { code := lowBits f.fixedBits x, ovf := true }
  else { code := lowBits f.fixedBits (if x < f.lo then f.lo else f.hi), ovf := true }

/-- A value rounded once into a format; `isInt` when the source is an integer (R209 to R216). -/
def FFmt.encodeSt (f : FFmt) (r : Rnd) (isInt st : Bool) : Val → Coded
  | .nan src => { code := f.nanCode src, special := true }
  | .inf neg =>
    if !f.sgn && neg then { code := 0, ovf := true } else f.infCode r neg
  | .fin neg m e =>
    if !f.sgn && neg && !(isInt && f.kind == .int) then { code := 0, ovf := decide (m ≠ 0) }
    else if f.fixed then f.encodeFixed r (isInt && f.kind == .int) neg m e st
    else f.encodeFin r neg m e st

/-- A value rounded once into a format. -/
def FFmt.encode (f : FFmt) (r : Rnd) (isInt : Bool) (x : Val) : Coded := f.encodeSt r isInt false x

/-- An exact integer stored in `w` bits under R212's last row. -/
def storeInt (w : Nat) (signed sat : Bool) (x : Int) : Nat :=
  ((intFmt w signed).encode { sat := sat } true (Val.ofInt x)).code

/-- A value rounded in an accumulator format with RNE and SAT = 0 (R212, R218). -/
def FFmt.step (f : FFmt) (x : Val) : Nat := (f.encode {} false x).code

/-- A conversion between formats (R213 to R216): from a code of `src` to a code of `dst`. -/
def convertCode (src dst : FFmt) (r : Rnd) (code : Nat) : Coded :=
  let narrowSide := src.kind == .narrow || dst.kind == .narrow
  let ftz := r.ftz && !narrowSide
  if src = dst ∧ src.kind = .ieee then
    let v := src.decode ftz code
    let v0 := src.decode false code
    if ftz && v != v0 then { code := src.signBit v0.neg, flushed := true }
    else { code := code % 2 ^ src.width, special := (match v with | .fin .. => false | _ => true) }
  else dst.encode { r with ftz := ftz } (src.kind == .int) (src.decode ftz code)

end Sys2Proof.Machine
end

