-- ==== Sys2Proof/Machine/Flags.lean ====
section
/-! DEFINITION. The values written to SCC and the mask flags (R282, R286, R289). -/

namespace Sys2Proof.Machine

/-- Carry out of the 32-bit unsigned sum (R282). -/
def carryOut (a b : Word) : Bool := decide (2 ^ 32 ≤ a.toNat + b.toNat)
/-- Borrow of a 32-bit difference (R282). -/
def borrowOut (a b : Word) : Bool := decide (a.toNat < b.toNat)
/-- `a = b` (R286). -/
def cmpEq (a b : Word) : Bool := a == b
/-- `a ≠ b` (R286). -/
def cmpNe (a b : Word) : Bool := a != b
/-- `sext(a) < sext(b)` (R286). -/
def cmpLtI (a b : Word) : Bool := decide (a.toInt < b.toInt)
/-- `sext(a) ≤ sext(b)` (R286). -/
def cmpLeI (a b : Word) : Bool := decide (a.toInt ≤ b.toInt)
/-- `zext(a) < zext(b)` (R286). -/
def cmpLtN (a b : Word) : Bool := decide (a.toNat < b.toNat)
/-- `zext(a) ≤ zext(b)` (R286). -/
def cmpLeN (a b : Word) : Bool := decide (a.toNat ≤ b.toNat)
/-- A condition held as a 32-bit value (R286). -/
def boolWord (b : Bool) : Word := if b then 1 else 0

/-- SCC written. -/
def Group.setScc (g : Group) (b : Bool) : Group := { g with scc := b }
/-- CMASK written. -/
def Group.setCmask (g : Group) (m : Word) : Group := { g with cmask := m }
/-- EXEC written. -/
def Group.setExec (g : Group) (m : Word) : Group := { g with exec := m }
/-- CMASK with the bits of some lanes replaced (R243, R303). -/
def mergeMask (old new lanes : Word) : Word := (old &&& ~~~lanes) ||| (new &&& lanes)
/-- The mask of the lanes where a condition holds. -/
def maskOfLanes (f : Nat → Bool) : Word := (List.range 32).foldl (fun m l => if f l then setBit m l true else m) 0

/-- The condition of `brany` (R287). -/
def condAny (g : Group) : Bool := g.cmask &&& g.exec != 0
/-- The condition of `brall` (R287). -/
def condAll (g : Group) : Bool := g.cmask &&& g.exec == g.exec
/-- The condition of `brnone` (R287). -/
def condNone (g : Group) : Bool := g.cmask &&& g.exec == 0

/-- %laneid: the lowest lane of EXEC, 32 for none (R240). -/
def laneidOf (m : Word) : Nat := ((List.range 32).find? (laneBit m)).getD 32

/-- A legal new value of MODE (R132). -/
def modeLegal (m : Word) : Bool :=
  m.extractLsb' 28 4 == 0 && m.extractLsb' 0 2 != 3 && decide ((m.extractLsb' 7 3).toNat ≤ 4) &&
    decide ((m.extractLsb' 2 5).toNat ≤ 12)

/-- A legal value of a format register (R134). -/
def fmtLegal (x : Word) : Bool :=
  let sgn := (x.extractLsb' 6 1).toNat
  let ew := (x.extractLsb' 3 3).toNat
  let mw := (x.extractLsb' 0 3).toNat
  let spec := (x.extractLsb' 17 2).toNat
  x == 0 ||
    (x.extractLsb' 21 11 == 0 && !x.getLsbD 16 && !x.getLsbD 7 && decide (sgn + ew + mw ≤ 8) &&
      !(spec == 3 && ew != 0) && !(spec != 3 && ew == 0) && !(spec == 2 && decide (ew < 2)))

end Sys2Proof.Machine
end

