-- ==== Sys2Proof/Machine/Operands.lean ====
section
/-! DEFINITION. Vector operands: element types, tags, pairs, broadcasts, and the checks at issue (R126, R127, R135 to
R138, R298, R300). -/

namespace Sys2Proof.Machine

/-- A TYPE whose lanes are pairs (R298). -/
def is64 (t : Nat) : Bool := t == 6 || t == 7 || t == 9
/-- Elements per lane (R298). -/
def typeN (t : Nat) : Nat := if t = 4 ∨ t = 5 ∨ t = 12 then 4 else if t = 2 ∨ t = 3 ∨ t = 10 ∨ t = 11 then 2 else 1
/-- Element width (R298). -/
def typeW (t : Nat) : Nat := if is64 t then 64 else 32 / typeN t
/-- A TYPE of signed integers. -/
def typeSigned (t : Nat) : Bool := t == 0 || t == 2 || t == 4 || t == 6
/-- An integer TYPE. -/
def typeInt (t : Nat) : Bool := decide (t < 8)
/-- A float TYPE. -/
def typeFloat (t : Nat) : Bool := decide (8 ≤ t) && decide (t ≤ 11)
/-- The element format of a TYPE; TYPE 12 takes the format of f[DFMT] (R298). -/
def Group.typeFmt (g : Group) (t : Nat) : FFmt :=
  match t with
  | 8 => f32
  | 9 => f64
  | 10 => f16
  | 11 => bf16
  | 12 => narrowFmt (g.fmt g.dfmt)
  | _ => intFmt (typeW t) (typeSigned t)
/-- The tag of a TYPE (R136). -/
def tagOf (dfmt t : Nat) : BitVec 5 :=
  match t with
  | 0 => 1 | 1 => 2 | 2 => 6 | 3 => 7 | 4 => 0x0B | 5 => 0x0C | 6 => 9 | 7 => 0x0A | 8 => 3 | 9 => 8 | 10 => 4 | 11 => 5
  | 12 => BitVec.ofNat 5 (16 + dfmt)
  | _ => 0
/-- The tag of MODE.TYPE. -/
def Group.typeTag (g : Group) : BitVec 5 := tagOf g.dfmt g.type
/-- The tags a TYPE accepts (R136). -/
def acceptsTag (dfmt t : Nat) (tag : BitVec 5) : Bool :=
  match t with
  | 0 | 1 => tag == 1 || tag == 2
  | 2 | 3 => tag == 6 || tag == 7
  | 4 | 5 => tag == 0x0B || tag == 0x0C
  | 6 | 7 => tag == 9 || tag == 0x0A
  | _ => tag == tagOf dfmt t

/-- Rounding of the group's MODE with the dither position of an element number (R210, R211). -/
def Group.rounding (g : Group) (i : Nat) : Rnd :=
  { rnd := g.rnd, sat := g.sat, ftz := g.ftz, theta := ditherP ((i + g.dphase.toNat) % 32) }

/-- An operand of V space of MODE.TYPE: a register or a pair (R298). -/
def Group.tOpd (g : Group) (c : BitVec 7) (code : Nat) (trap : Bool := false) : Opd :=
  vOpd c code trap (if is64 g.type then 2 else 1)

/-- Pairs begin at an even code and quads at a multiple of 4 (R127). -/
def pairCheck : List Opd → Check
  | [] => .ok
  | o :: t => if o.n % o.cnt == 0 then pairCheck t else .raise (illegal 5 o.code)

/-- The first register of an operand whose tag is not accepted, with its place in the operand. -/
def Opd.badTag (g : Group) (accept : BitVec 5 → Bool) (o : Opd) : Option (Nat × Nat) :=
  if o.scalar then none else ((List.range o.cnt).map fun i => (i, o.n + i)).find? fun p => !accept (g.tag p.2)

/-- Tags of the vector sources (R138): FORMAT_TAG when FMTTRAP = 1, nothing otherwise. -/
def tagCheck (g : Group) (accept : BitVec 5 → Bool) : List Opd → Check
  | [] => .ok
  | o :: t =>
    match o.badTag g accept with
    | some (i, r) =>
      if g.fmtTrap then
        .raise { code := .formatTag, info := BitVec.ofNat 12 (g.tag r).toNat, opnd := BitVec.ofNat 8 (if i = 0 then o.code else 5) }
      else tagCheck g accept t
    | none => tagCheck g accept t

/-- The checks of a vector instruction: allocation, its own refusals, pairs, empty bits, errors, tags (R58, R125, R138, R140, R242). -/
def vecCheck (g : Group) (own : Check) (srcs dsts : List Opd) (accept : BitVec 5 → Bool) (tagged : List Opd) : Check :=
  firstCheck [operandCheck g srcs dsts (firstCheck [own, pairCheck (srcs ++ dsts)]), tagCheck g accept tagged]

/-- The TYPE that an instruction accepts (R300). -/
def typeCheck (ok : Bool) : Check := raiseIf (!ok) (illegal 5)

/-- Codes of a block-scaled f[DFMT] are neither read nor written under TYPE 12 (R319). -/
def codesCheck (g : Group) : Check := raiseIf (g.type == 12 && (narrowFmt (g.fmt g.dfmt)).sblk) (illegal 5)

/-- Value of an operand of MODE.TYPE in a lane. -/
def Group.opv (g : Group) (c : BitVec 7) (l : Nat) : Nat :=
  if is64 g.type then (g.vpair c.toNat l).toNat else (g.vsrc c.toNat l).toNat

/-- Element `j` of width `w` (R204). -/
def elemOf (w x j : Nat) : Nat := x / 2 ^ (w * j) % 2 ^ w

/-- Elements packed from the low bits upwards (R204). -/
def packElems (w : Nat) (f : Nat → Nat) : Nat → Nat
  | 0 => 0
  | n + 1 => packElems w f n + f n % 2 ^ w * 2 ^ (w * n)

/-- A result per active lane written to v[d], or to its pair, with a tag (R299). -/
def Group.writeT (g : Group) (wide : Bool) (d : BitVec 7) (m : Word) (f : Nat → Nat) (tag : BitVec 5) : Group :=
  if wide then g.writeVpair d.toNat m (fun l => BitVec.ofNat 64 (f l)) tag
  else g.writeV d.toNat m (fun l => BitVec.ofNat 32 (f l)) tag

/-- A result per element of MODE.TYPE. -/
def Group.perElem (g : Group) (f : Nat → Nat → Nat) (l : Nat) : Nat := packElems (typeW g.type) (f l) (typeN g.type)

/-- Element `j` of an operand in a lane. -/
def Group.el (g : Group) (c : BitVec 7) (l j : Nat) : Nat := elemOf (typeW g.type) (g.opv c l) j

/-- Element as an integer of the TYPE's signedness (R304). -/
def Group.eli (g : Group) (c : BitVec 7) (l j : Nat) : Int :=
  if typeSigned g.type then sextN (g.el c l j) (typeW g.type) else g.el c l j

/-- Element as a float value of the TYPE, FTZ applied to inputs (R213). -/
def Group.elv (g : Group) (c : BitVec 7) (l j : Nat) : Val := (g.typeFmt g.type).decode g.ftz (g.el c l j)

/-- Two or three elements combined per element of MODE.TYPE into v[d] tagged with the tag of TYPE: the shape of R304 and
R311. -/
def State.elemOp (s : State) (types : Nat → Bool) (srcs : List Opd) (d : BitVec 7) (f : Group → Nat → Nat → Nat) :
    Host.Outcome State Fault Refusal :=
  s.issue (vecCheck s.g (typeCheck (types s.g.type)) srcs [s.g.tOpd d 3] (acceptsTag s.g.dfmt s.g.type) srcs) fun s =>
    s.modG fun g => g.writeT (is64 g.type) d g.active (g.perElem (f g)) g.typeTag

/-- The tag a move-class instruction writes: the common tag of its vector sources, a broadcast counting as the tag of
TYPE (R137 rule 3). -/
def Group.moveTag (g : Group) (l : List (BitVec 7)) : BitVec 5 :=
  let one := fun (c : BitVec 7) =>
    if c.toNat < 96 then (if is64 g.type then [g.tag c.toNat, g.tag (c.toNat + 1)] else [g.tag c.toNat]) else [g.typeTag]
  match l.flatMap one with
  | [] => 0
  | t :: rest => if rest.all (· == t) then t else 0

end Sys2Proof.Machine
end

