-- ==== Sys2Proof/Machine/Units.lean ====
section
/-! DEFINITION. The units of work other parties do for a group: atomics at home (R159, R160), engine chunks (R182 to R189),
and root slots (R195). Each is one indivisible step. -/

namespace Sys2Proof.Machine

/-! ### Requests of the L1 slices at their homing slices (R83 to R90) -/

/-- A message of a homing slice performed (R87). -/
def State.doMsg (s : State) (ctx line : Nat) (m : Nat × CohKind × Word) : State :=
  match m.2.1 with
  | .recall => s.doRecall ctx m.1 line m.2.2
  | .inv => s.doInv ctx m.1 line m.2.2
  | .binv => s.doBinv ctx m.1 line

/-- The requests for one line are handled one at a time, in order: the first one of the line. -/
def State.cohFirst (s : State) (line : Nat) : Option CohReq := s.coh.find? (·.line == line)

/-- A request of the table changed. -/
def State.modCoh (s : State) (id : Nat) (f : CohReq → CohReq) : State :=
  { s with coh := s.coh.map fun q => if q.id == id then f q else q }

/-- The span of a request recorded in the directory and in the words of the grove (R83, R84, R87). -/
def State.cohGive (s : State) (q : CohReq) : State :=
  (s.cohRecord q).modGrove q.grove fun g =>
    g.modWords q.line (spanMask q.first q.n) fun w => { w with valid := true, granted := w.granted || q.write }

/-- Words of a line for which a grove has asked and not been answered. -/
def State.asked (s : State) (gr line : Nat) : Word :=
  (s.coh.filter fun x => x.write && x.grove == gr && x.line == line).foldl (fun (m : Word) x => m ||| spanMask x.first x.n) 0

/-- After a grant: stores that still wait in the line and whose words have been lost meanwhile are asked for again (R84). -/
def State.reask (s : State) (gr line : Nat) : State :=
  let mine := s.pend.filter fun p => p.grove == gr && lineOf p.pa == line
  let need := (mine.foldl (fun (m : Word) p => m ||| p.mask) 0) &&& ~~~((s.grove gr).wMask line ||| s.asked gr line)
  match mine with
  | p :: _ =>
    if need = 0 then s
    else
      s.sendCoh { id := 0, grove := gr, line := line, first := (spanOf need).1, n := (spanOf need).2, write := true, cls := p.cls,
                  pinned := s.l2Pins p.home line, ctx := p.ctx, vline := p.vline, g := p.g }
  | [] => s

/-! ### Atomics (R159 to R162) -/

/-- TYPEs of an atomic operation: 0 add, 1 min, 2 max, 3 and, 4 or, 5 xor, 6 xchg, 7 cas (R159). -/
def atomTypes (op ty : Nat) : Bool := ty == 0 || ty == 1 || ty == 6 || ty == 7 || (op == 0 && (ty == 8 || ty == 9))

/-- The new value from old value `m` and operands; none when nothing is written (R159). -/
def rmw (op ty m x y : Nat) : Option Nat :=
  let w := typeW ty
  let fl := if ty = 9 then f64 else f32
  let less : Bool :=
    if ty = 0 ∨ ty = 6 then decide (sextN m w ≤ sextN x w) else decide (m ≤ x)
  match op with
  | 0 => if ty = 8 ∨ ty = 9 then some (fl.encode {} false (Val.add 0 (fl.decode false m) (fl.decode false x))).code
         else some ((m + x) % 2 ^ w)
  | 1 => some (if less then m else x)
  | 2 => some (if less then x else m)
  | 3 => some (m &&& x)
  | 4 => some (m ||| x)
  | 5 => some (m ^^^ x)
  | 6 => some x
  | _ => if m = x then some y else none

/-- An atomic that meets an uncorrectable word at home: the lanes not performed are dropped, the destination stays empty, and
the issuing group takes the fault (R141, R160). -/
def State.atomEcc (s : State) (r : SvcReq) : State :=
  let s1 : State := { s with groves := s.groves.map fun p => (p.1, { p.2 with svcq := p.2.svcq.filter (·.id != r.id) }) }
  (s1.modGroup r.g fun g =>
    ({ g with atoms := g.atoms.filter (·.id != r.id) } : Group).doneOp (if r.ret then 0 else 1) r.id).asyncFault r.g
      { code := .eccUncorrectable }

/-- Bytes of an element of an atomic. -/
def SvcReq.size (r : SvcReq) : Nat := typeW r.ty / 8

/-- The line of an atomic at its home grove. -/
def SvcReq.use (r : SvcReq) : LineUse :=
  { line := lineOf r.pa, vline := r.vline, bytes := byteMask r.pa r.size, cls := r.cls, home := r.home }

/-- The home grove may write the location: its words are granted to it, or it is never cached (R91). -/
def State.atomGranted (s : State) (gr : Nat) (r : SvcReq) : Bool :=
  r.home == 3 || r.use.mask &&& ~~~((s.grove gr).wMask r.use.line) == 0

/-- What an atomic writes is dirty in the home grove's L1, where that holds the grant (R84, R91). -/
def State.atomMark (s : State) (gr : Nat) (r : SvcReq) : State :=
  if r.home = 3 ∨ s.atomGranted gr r = false then s else s.modGrove gr (·.dirtyWords r.use)

/-- One lane request performed at its home grove (R160): its old value goes to the return slot. A `red` completes when its last
lane has been performed (R152, R162). -/
def State.performAtom (s : State) (gr : Nat) (r : SvcReq) : State :=
  if s.eccBad r.pa r.size then s.atomEcc r
  else
    let old := readNat s.mem r.pa r.size
    let s1 := match rmw r.op r.ty old r.x.toNat r.y.toNat with
      | some v => (s.atomMark gr r).storeBytes r.pa (bytesOfNat r.size v)
      | none => s
    let s2 := s1.modGrove gr fun g => { g with svcq := g.svcq.filter fun q => !(q.id == r.id && q.lane == r.lane) }
    if r.ret then
      s2.modGroup r.g fun g =>
        { g with atoms := g.atoms.map fun a =>
            if a.id == r.id then { a with replies := a.replies ++ [(r.lane, BitVec.ofNat 64 old)] } else a }
    else if s2.groves.any fun p => p.2.svcq.any (·.id == r.id) then s2
    else s2.modGroup r.g fun g => g.doneOp 1 r.id

/-- A request performed with the further lanes of its instruction that name the same location, `t` being what stands behind it in
the queue (R118, R160). -/
def State.performLanes (s : State) (gr : Nat) (r : SvcReq) (t : List SvcReq) : State :=
  (r :: t.filter fun q => q.id == r.id && q.pa == r.pa).foldl (fun (u : State) (q : SvcReq) => u.performAtom gr q) s

/-- A store to the location from the issuing group's grove still waits: the atomic comes after it (R110, R118). -/
def State.atomBehind (s : State) (r : SvcReq) : Bool :=
  match s.group? r.g with
  | some g => s.pend.any fun p => p.grove == groveOf g.core && decide (p.pa < r.pa + r.size) && decide (r.pa < p.pa + p.bytes.length)
  | none => false

/-- The head request of a home grove (R160): performed once the grove's L1 holds the grant, which is asked for by GETW as any
store does (R91). -/
def State.performHead (s : State) (gr : Nat) : State :=
  match (s.grove gr).svcq with
  | [] => s
  | r :: t =>
    if s.atomBehind r then s
    else if s.atomGranted gr r || s.eccBad r.pa r.size then s.performLanes gr r t
    else
      let need := r.use.mask &&& ~~~((s.grove gr).wMask r.use.line ||| s.asked gr r.use.line)
      if need = 0 then s
      else
        s.sendCoh { id := 0, grove := gr, line := r.use.line, first := (spanOf need).1, n := (spanOf need).2, write := true, cls := r.cls,
                    pinned := s.l2Pins r.home r.use.line, ctx := r.ctx, vline := r.vline, g := 0 }

/-- An atomic whose line the L2 could not take is performed at the frame's memory, as for HOME 0b11 (R89). -/
def State.atomUncached (s : State) (q : CohReq) : State :=
  match (s.grove q.grove).svcq with
  | r :: t => if q.g = 0 ∧ lineOf r.pa = q.line ∧ s.atomBehind r = false then s.performLanes q.grove r t else s
  | [] => s

/-! ### Grants -/

/-- A request completed: the line is looked up in the L2, and where it is resident the directory and the grove's words record
the span (R83, R84, R87). Where the L2 has no room the L1 allocates nothing either, and what waits for a grant is performed at the
frame's memory (R89). Stores that the grant makes possible are performed. -/
def State.cohDone (s : State) (q : CohReq) : State :=
  let (kept, s1) := s.l2Alloc q.ctx q.line q.vline q.cls q.pinned
  let s2 := if kept then s1.l1Touch q.grove q.line else s1
  let held := kept && (s2.grove q.grove).holds q.line
  let s3 := { (if held then s2.cohGive q else s2) with coh := s2.coh.filter (·.id != q.id) }
  if held then (if q.write then (s3.retryStores q.grove q.line 0).reask q.grove q.line else s3)
  else
    let s4 := if q.write then ((s3.retryStores q.grove q.line (spanMask q.first q.n)).atomUncached q).reask q.grove q.line else s3
    if (s4.grove q.grove).validMask q.line = 0 then s4.evictL1 q.grove q.line else s4

/-- Every message of a request has been acknowledged: an entry that has to give up its records switches to broadcast mode, after
which a GETW sends its BINV round; a GETS is answered (R87, R88, R92). -/
def State.cohAcked (s : State) (q : CohReq) : State :=
  if q.toBcast then
    let s1 := s.toBroadcast q
    if q.write then
      let msgs := s1.cohMsgs q
      (s1.countBcast q.ctx q.line).modCoh q.id fun x => { x with toBcast := false, msgs := msgs }
    else s1.cohDone { q with toBcast := false }
  else if q.write then s
  else s.cohDone q

/-- The homing slice takes a request and sends the messages it causes (R87, R88); a BINV round is counted (R92). -/
def State.cohAdmit (s : State) (q : CohReq) : State :=
  let q' := { q with taken := true, toBcast := s.overflows q, msgs := s.cohMsgs q }
  let round : Bool := match s.dirOf q.line with | .broadcast .. => q.write | .precise _ => false
  let s1 := (if round then s.countBcast q.ctx q.line else s).modCoh q.id fun _ => q'
  if q'.msgs.isEmpty then s1.cohAcked q' else s1

/-- A message performed and acknowledged (R87). -/
def State.cohMsg (s : State) (line : Nat) (m : Nat × CohKind × Word) : State :=
  match s.cohFirst line with
  | none => s
  | some q =>
    if !q.taken || !q.msgs.contains m then s
    else
      let q' := { q with msgs := q.msgs.erase m }
      let s1 := (s.doMsg q.ctx line m).modCoh q.id fun _ => q'
      if q'.msgs.isEmpty then s1.cohAcked q' else s1

/-- The next thing the oldest request comes to. -/
def State.cohStep (s : State) : State :=
  match s.coh with
  | [] => s
  | q :: _ =>
    if !q.taken then s.cohAdmit q
    else
      match q.msgs with
      | m :: _ => s.cohMsg q.line m
      | [] => s.cohDone q

/-- Requests carried out, oldest first. -/
def State.cohRun : Nat → State → State
  | 0, s => s
  | n + 1, s => if s.coh.isEmpty then s else State.cohRun n s.cohStep

/-- Every outstanding request carried out; one request is at most 258 messages and four steps. -/
def State.cohFlush (s : State) : State := State.cohRun (512 * (s.coh.length + s.pend.length + 1)) s

/-- Queued atomics of a grove performed in queue order until none of a context is left. -/
def State.drainGrove (gr ctx : Nat) : Nat → State → State
  | 0, s => s
  | n + 1, s =>
    if (s.grove gr).svcq.any (·.ctx == ctx) then State.drainGrove gr ctx n (s.performHead gr).cohFlush else s

/-- Every store and every queued atomic of a context brought home. -/
def State.drainAtoms (s : State) (ctx : Nat) : State :=
  let s1 := s.cohFlush
  s1.groves.foldl (fun (t : State) (p : Nat × Grove) => State.drainGrove p.1 ctx (2 * p.2.svcq.length + 2) t) s1

/-! ### Virtual ranges of engines and roots -/

/-- A part in this package's memory. -/
def Piece.here (pa n : Nat) (e : TlbEntry) : Piece :=
  .loc pa n e.ctx ((e.vpage * e.size + pa % e.size) / 128) e.cls e.home

/-- `[va, va + n)` cut at 64 KiB boundaries. -/
def runs (va : DWord) (n : Nat) : List (DWord × Nat) :=
  if n = 0 then []
  else
    let o := va.toNat % 65536
    (List.range ((o + n - 1) / 65536 + 1)).map fun k =>
      let a := if k = 0 then 0 else 65536 * k - o
      (va + BitVec.ofNat 64 a, min (n - a) (65536 - (if k = 0 then o else 0)))

/-- A range of another package cut into transactions of at most 8 flits of 32 bytes (R436). -/
def flits (pkg off n : Nat) (va : DWord) : List Piece :=
  if n = 0 then []
  else
    let o := off % 256
    (List.range ((o + n - 1) / 256 + 1)).map fun k =>
      let a := if k = 0 then 0 else 256 * k - o
      .rem pkg (off + a) (min (n - a) (256 - (if k = 0 then o else 0))) (va + BitVec.ofNat 64 a)

/-- Ranges translated for a party, in order; the first address that does not pass decides. -/
def State.pieces (s : State) (c : Ctx) (w : Who) (kind : AccKind) : List (DWord × Nat) → Except XRes (List Piece)
  | [] => .ok []
  | (va, n) :: t =>
    match s.pieces c w kind t with
    | .error x =>
      match s.translate c w va kind with
      | .hit .. => .error x
      | .remote .. => .error x
      | y => .error y
    | .ok r =>
      match s.translate c w va kind with
      | .hit pa e => .ok (.here pa n e :: r)
      | .remote p o => .ok (flits p o n va ++ r)
      | y => .error y

/-- What a unit of work comes to. -/
inductive UnitRes (α : Type) where
  /-- it waits: for a walk, a handover or another package -/
  | wait (s : State)
  | fault (s : State) (r : Raise)
  | done (s : State) (x : α)

/-- What follows from a translation that does not pass: a walk queued, a wait, or a fault. -/
def State.unitXlat {α : Type} (s : State) (x : XRes) : UnitRes α :=
  match x with
  | .miss q => .wait (s.queueWalk q)
  | .raise r => .fault s r
  | _ => .wait s

/-- The operation code of a transaction that has an access translated and checked at its target, and performs nothing (R149;
assumption log 83). -/
def probeOp : Nat := 8192

/-- The transactions of a party. -/
def State.txnsOf (s : State) (owner : Nat) (write : Bool) : List FabTxn := s.fab.filter fun x => x.owner == owner && x.write == write

/-- The transactions of the remote parts of a list of pieces, `data` being what the pieces carry in order; the keys are still to
be given. -/
def remTxns (owner op : Nat) (write : Bool) (tag : BitVec 16) : List Piece → List Byte → List FabTxn
  | [], _ => []
  | .loc _ n _ _ _ _ :: t, bs => remTxns owner op write tag t (bs.drop n)
  | .rem p o n va :: t, bs =>
    { id := 0, owner := owner, write := write, op := op, pkg := p, off := o, tag := tag, size := n, data := bs.take n, va := va } ::
      remTxns owner op write tag t (bs.drop n)

/-- Transactions sent. -/
def State.sendTxns (s : State) (l : List FabTxn) : State :=
  { s with
    fab := s.fab ++ (l.zip (List.range l.length)).map fun p => { p.1 with id := s.fresh + p.2 }
    fresh := s.fresh + l.length }

/-- What the first answer that is a code raises, with the address of its access (R13, R49). -/
def failedTxn (l : List FabTxn) : Option Raise :=
  l.findSome? fun x =>
    match x.resp with
    | some (c, d, _) => if c = 0 then none else some { code := Code.ofNum c.toNat, xdet := d, va := x.va }
    | none => none

/-- Where the transactions of a unit stand: none needed or all answered (`done`), to be sent, awaited, or failed. -/
def State.remoteState (s : State) (owner : Nat) (write : Bool) (l : List FabTxn) : UnitRes (List FabTxn) :=
  if l.isEmpty then .done s []
  else
    let mine := s.txnsOf owner write
    if mine.isEmpty then .wait (s.sendTxns l)
    else if mine.any (·.resp.isNone) then .wait s
    else
      match failedTxn mine with
      | some r => .fault s r
      | none => .done s mine

/-- The bytes of some pieces: memory, and the answers of other packages in order. -/
def gatherBytes (m : List Host.Cell) : List Piece → List FabTxn → List Byte
  | [], _ => []
  | .loc pa n _ _ _ _ :: t, l => readBytes m pa n ++ gatherBytes m t l
  | .rem .. :: t, x :: l => (match x.resp with | some (_, _, bs) => bs | none => []) ++ gatherBytes m t l
  | .rem .. :: t, [] => gatherBytes m t []

/-- The local lines of some pieces. -/
def pieceLines (ps : List Piece) : List LineUse :=
  linesOf (ps.filterMap fun p => match p with
    | .loc pa n ctx vline cls home => some (pa, n, pieceEntry pa ctx vline cls home)
    | .rem .. => none)

/-- The local lines of some pieces read at the homing slices (R91, R183). -/
def State.readLines (s : State) (ctx : Nat) (ps : List Piece) : State :=
  (pieceLines ps).foldl (fun (u : State) (x : LineUse) => u.homeRead ctx x) s

/-- The local lines of some pieces written at the homing slices (R91, R183). -/
def State.writeLines (s : State) (ctx : Nat) (ps : List Piece) : State :=
  (pieceLines ps).foldl (fun (u : State) (x : LineUse) => u.homeWrite ctx x) s

/-- A part of this package's memory holds an uncorrectable word (R58, R446). -/
def State.eccPiece (s : State) : Piece → Bool
  | .loc pa n .. => s.eccBad pa n
  | .rem .. => false

/-- ECC_UNCORRECTABLE at a virtual address, or at a window offset. -/
def eccAt (va : DWord) : Raise := { code := .eccUncorrectable, va := va }

/-- Virtual ranges that a party reads: their parts and bytes, once they are all at hand. A store of the party's grove that waits in
one of the lines comes first (R115). Nothing of the read is done yet. -/
def State.readPlan (s : State) (c : Ctx) (w : Who) (owner : Nat) (l : List (DWord × Nat)) : UnitRes (List Piece × List Byte) :=
  match s.pieces c w .read l with
  | .error x => s.unitXlat x
  | .ok ps =>
    if s.storeAhead (groveOf w.core) (pieceLines ps) then .wait s
    else if ps.any s.eccPiece then .fault s (eccAt (match l with | r :: _ => r.1 | [] => 0))
    else
      match s.remoteState owner false (remTxns owner 0 false c.jobTag ps []) with
      | .wait t => .wait t
      | .fault t r => .fault t r
      | .done t a => .done t (ps, gatherBytes t.mem ps a)

/-- Virtual ranges that a party writes: their parts, once those of other packages have been written. `bs` gives the bytes and what
taking them leaves. -/
def State.writePlan (s : State) (c : Ctx) (w : Who) (owner : Nat) (l : List (DWord × Nat)) (bs : State → List Byte × State) :
    UnitRes (List Piece) :=
  match s.pieces c w .write l with
  | .error x => s.unitXlat x
  | .ok ps =>
    if s.storeAhead (groveOf w.core) (pieceLines ps) then .wait s
    else
      let (data, s1) := bs s
      let l := remTxns owner 0 true c.jobTag ps data
      if !l.isEmpty && (s.txnsOf owner true).isEmpty then .wait (s1.sendTxns l)
      else
        match s.remoteState owner true l with
        | .wait t => .wait t
        | .fault t r => .fault t r
        | .done t _ => .done t ps

/-- Virtual ranges read for a party at the homing slices (R91, R183). -/
def State.readRanges (s : State) (c : Ctx) (w : Who) (owner : Nat) (l : List (DWord × Nat)) : UnitRes (List Byte) :=
  match s.readPlan c w owner l with
  | .wait t => .wait t
  | .fault t r => .fault t r
  | .done t p => .done (t.readLines c.num p.1) p.2

/-- Local pieces stored, in order. -/
def State.storePieces (s : State) : List Piece → List Byte → State
  | [], _ => s
  | .loc pa n _ _ _ _ :: t, bs => (s.storeBytes pa (bs.take n)).storePieces t (bs.drop n)
  | .rem _ _ n _ :: t, bs => s.storePieces t (bs.drop n)

/-- Virtual ranges written for a party at the homing slices (R91, R183). -/
def State.writeRanges (s : State) (c : Ctx) (w : Who) (owner : Nat) (l : List (DWord × Nat)) (bs : List Byte) :
    UnitRes Unit :=
  match s.writePlan c w owner l fun t => (bs, t) with
  | .wait t => .wait t
  | .fault t r => .fault t r
  | .done t ps => .done ((t.writeLines c.num ps).storePieces ps bs) ()

/-- The transactions of a party forgotten. -/
def State.dropTxns (s : State) (owner : Nat) : State := { s with fab := s.fab.filter (·.owner != owner) }

/-! ### Engine requests (R180 to R190) -/

/-- Who an engine request translates as (R38, R49). -/
def EngReq.who (e : EngReq) : Who := { agent := e.cls + 1, core := e.core }

/-- A signed offset added to an address of a request. -/
def addOff (a : DWord) (x : Int) : DWord := a + BitVec.ofInt 64 x

/-- The fault of a party with AGENT set to it, in a detail word that another package has answered too (R49, R188). -/
def Raise.byAgent (r : Raise) (agent : Nat) : Raise :=
  if r.xdet = 0 then r else { r with xdet := (r.xdet &&& ~~~0x38#32) ||| BitVec.ofNat 32 (agent % 8 * 8) }

/-- A request that has stopped on a fault: removed, and ENGINE_REQUEST raised with its record (R188). -/
def State.engFail (s : State) (e : EngReq) (r : Raise) : State :=
  ((s.dropTxns e.id).dropEng e).engFault e.team e.g e.off.toNat e.cls.succ (r.byAgent e.cls.succ)

/-- One arrival of a request on its object; an overflow stops the request (R182, R188, R189). -/
def State.engPost (s : State) (e : EngReq) (a n : Nat) : Option State :=
  match e.bar with
  | none => some s
  | some off => s.arriveFor e.team off a n

/-- What stops a request whose arrival could not be applied; BARRIER_OVERFLOW names the object (R189). -/
def State.overflowOf (s : State) (e : EngReq) : Raise := s.badArrive e.team (e.bar.getD 0)

/-- A request after a unit of `n` bytes: the unit's arrival posted and the cursor moved; after the last one the arrival of
ARRIVE, and the end (R182, R190). -/
def State.engAdvance (s : State) (e : EngReq) (n row byte : Nat) : State :=
  match (s.dropTxns e.id).engPost e 0 n with
  | none => s.engFail e (s.overflowOf e)
  | some s1 =>
    if e.rows ≤ row then
      match if e.arrive then s1.engPost e 1 0 else some s1 with
      | none => s1.engFail e (s1.overflowOf e)
      | some s2 => s2.dropEng e
    else if e.stopReq then s1.dropEng e
    else { s1 with engs := s1.engs.map fun x => if x.id == e.id then { x with row := row, byte := byte, acc := 0 } else x }

/-- The cursor past `n` bytes of the current row. -/
def EngReq.past (e : EngReq) (n : Nat) : Nat × Nat :=
  if e.rowlen ≤ e.byte + n then (e.row + 1, 0) else (e.row, e.byte + n)

/-- Destination address of the cursor: a window offset, or the low bits of a virtual address. -/
def EngReq.dstAt (e : EngReq) : DWord := addOff e.dst (e.row * e.dstride + e.byte)
/-- Source address of the cursor. -/
def EngReq.srcAt (e : EngReq) : DWord := addOff e.src (e.row * e.sstride + e.byte)

/-- Bytes of the chunk at the cursor (R182). -/
def EngReq.chunk (e : EngReq) : Nat := min (e.rowlen - e.byte) (4096 - e.dstAt.toNat % 4096)

/-- The memory of this package behind some ranges of a context, as the page tables stand. A fabric-global address of this package
names memory of the one context that carries the job tag (R13). -/
def State.physRuns (s : State) (c : Ctx) (l : List (DWord × Nat)) : List (Nat × Nat) :=
  let phys := fun (c : Ctx) (va n : Nat) =>
    match walkTable (readD s.mem) c va with
    | .leaf _ level e => some (pteFrame e * 65536 + va % leafSize level, n)
    | _ => none
  l.filterMap fun p =>
    match (p.1.extractLsb' 54 2).toNat with
    | 0 => phys c p.1.toNat p.2
    | 3 =>
      if (p.1.extractLsb' 41 13).toNat = s.dev.pkgid.toNat then
        match s.allCtxs.filter (·.jobTag == c.jobTag) with
        | [d] => phys d (p.1.extractLsb' 0 41).toNat p.2
        | _ => none
      else none
    | _ => none

/-- A byte of a virtual destination that overlaps the virtual source of its request (R182). -/
def State.engOverlap (s : State) (c : Ctx) (e : EngReq) (va : DWord) : Bool :=
  (List.range e.rows).any fun (r : Nat) =>
    let row := addOff e.src (r * e.sstride)
    decide ((va - row).toNat < e.rowlen) ||
      (s.physRuns c [(va, 1)]).any fun p =>
        (s.physRuns c (runs row e.rowlen)).any fun q => decide (q.1 ≤ p.1) && decide (p.1 < q.1 + q.2)

/-- The bytes a request stores at its cursor: free values where the destination overlaps the source (R182; assumption log
16). -/
def State.engBytes (s : State) (c : Ctx) (e : EngReq) (bs : List Byte) : List Byte × State :=
  if e.srcsp || e.dstsp then (bs, s)
  else
    let (fb, s1) := s.freeBytes bs.length
    (((bs.zip fb).zip (List.range bs.length)).map fun p =>
      if s.engOverlap c e (e.dstAt + BitVec.ofNat 64 p.2) then p.1.2 else p.1.1, s1)

/-- Bytes of a request's source, its window or virtual memory, with the parts they lie in. -/
def State.engRead (s : State) (c : Ctx) (t : Team) (e : EngReq) (n : Nat) : UnitRes (List Piece × List Byte) :=
  if e.srcsp then
    if t.eccBad e.srcAt.toNat n then .fault s (eccAt e.srcAt) else .done s ([], winBytes t.win e.srcAt.toNat n)
  else s.readPlan c e.who e.id (runs e.srcAt n)

/-- One chunk of a copy (R182): read and written once both sides are at hand. -/
def State.copyChunk (s : State) (e : EngReq) : State :=
  match s.team? e.team, s.ctx? e.ctx with
  | some t, some c =>
    let n := e.chunk
    match s.engRead c t e n with
    | .wait u => u
    | .fault u r => u.engFail e r
    | .done u p =>
      let cur := e.past n
      if e.dstsp then
        ((u.readLines c.num p.1).modTeam e.team fun t => t.write e.dstAt.toNat p.2).engAdvance e n cur.1 cur.2
      else
        match u.writePlan c e.who e.id (runs e.dstAt n) fun v => v.engBytes c e p.2 with
        | .wait v => v
        | .fault v r => v.engFail e r
        | .done v ps =>
          let (bs, w) := v.engBytes c e p.2
          (((w.readLines c.num p.1).writeLines c.num ps).storePieces ps bs).engAdvance e n cur.1 cur.2
  | _, _ => s.dropEng e

/-- One batch of up to 32 rows of a gather (R186). -/
def State.gatherRows (s : State) (e : EngReq) : State :=
  match s.team? e.team, s.ctx? e.ctx with
  | some t, some c =>
    let rows := rangeFrom e.row (min 32 (e.rows - e.row))
    let src := rows.flatMap fun (r : Nat) =>
      runs (addOff e.src ((winNat t.win (e.idxOff + 4 * r) 4 : Nat) * e.sstride)) e.rowlen
    match if t.eccBad (e.idxOff + 4 * e.row) (4 * rows.length) then .fault s (eccAt (BitVec.ofNat 64 (e.idxOff + 4 * e.row)))
      else s.readRanges c e.who e.id src with
    | .wait u => u
    | .fault u r => u.engFail e r
    | .done u bs =>
      let offs := rows.map fun (r : Nat) => (addOff e.dst (r * e.dstride)).toNat
      let u1 := u.modTeam e.team fun t =>
        let w := (offs.zip (List.range offs.length)).foldl
          (fun (m : SMap Byte) (p : Nat × Nat) => winWrite m p.1 ((bs.drop (p.2 * e.rowlen)).take e.rowlen)) t.win
        { t with win := w }.touch (offs.map fun o => (o, e.rowlen)) .other
      u1.engAdvance e (rows.length * e.rowlen) (e.row + rows.length) 0
  | _, _ => s.dropEng e

/-- The cursor of a copy-reduce after an element: its chunk ends with the row, or where the next element begins in another
4,096-byte block of the destination (R182). -/
def State.colAdvance (s : State) (e : EngReq) (size : Nat) : State :=
  let cur := e.past size
  let next := { e with row := cur.1, byte := cur.2, acc := e.acc + size }
  if cur.2 = 0 ∨ next.dstAt.toNat / 4096 ≠ e.dstAt.toNat / 4096 then s.engAdvance e (e.acc + size) cur.1 cur.2
  else
    { (s.dropTxns e.id) with engs := s.engs.map fun x => if x.id == e.id then next else x }

/-- The parts of one element of a destination: an element of another package is one part, whatever boundary it straddles, since
it is updated there as one (R187). -/
def State.elemPieces (s : State) (c : Ctx) (e : EngReq) (size : Nat) : Except XRes (List Piece) :=
  match s.translate c e.who e.dstAt .write with
  | .remote p o => .ok [.rem p o size e.dstAt]
  | _ => s.pieces c e.who .write (runs e.dstAt size)

/-- One element of a copy-reduce updated at its home as one read-modify-write, which reads it (R58, R187). -/
def State.colElem (s : State) (e : EngReq) : State :=
  match s.team? e.team, s.ctx? e.ctx with
  | some t, some c =>
    let size := typeW e.ety / 8
    match s.engRead c t e size with
    | .wait u => u
    | .fault u r => u.engFail e r
    | .done u p =>
      let x := natOfBytes p.2
      let upd := fun (old : List Byte) => bytesOfNat size ((rmw e.op e.ety (natOfBytes old) x 0).getD 0)
      if e.dstsp && t.eccBad e.dstAt.toNat size then u.engFail e (eccAt e.dstAt)
      else if e.dstsp then
        ((u.readLines c.num p.1).modTeam e.team fun t => t.write e.dstAt.toNat (upd (winBytes t.win e.dstAt.toNat size))).colAdvance e size
      else
        match u.elemPieces c e size with
        | .error y =>
          match (u.unitXlat y : UnitRes Unit) with
          | .wait v => v
          | .fault v r => v.engFail e r
          | .done v _ => v
        | .ok ps =>
          if u.storeAhead (groveOf e.core) (pieceLines ps) then u
          else if ps.any u.eccPiece then u.engFail e (eccAt e.dstAt)
          else
            match u.remoteState e.id true (remTxns e.id (4096 + 16 * e.op + e.ety) true c.jobTag ps p.2) with
            | .wait v => v
            | .fault v r => v.engFail e r
            | .done v _ =>
              let v1 := (v.readLines c.num p.1).writeLines c.num ps
              let (new, v2) := v1.engBytes c e (upd (gatherBytes v1.mem ps []))
              (v2.storePieces ps new).colAdvance e size
  | _, _ => s.dropEng e

/-! ### Root streamers (R192 to R197) -/

/-- Who a subscription translates as. -/
def Sub.who (b : Sub) (core : Nat) : Who := { agent := 4, core := core, root := some b.stack }

/-- The party of a subscription in fabric transactions. -/
def Sub.party (b : Sub) : Nat := 2 ^ 64 + b.team * 8 + b.handle

/-- A subscription ended on a fault: ACTIVE falls, and the fault is raised with its record (R188). -/
def State.rootFail (s : State) (b : Sub) (r : Raise) : State :=
  let s1 := s.modTeam b.team fun t => t.setRing3 b.ring { t.ring b.ring with active := false }
  ({ s1 with subs := s1.subs.filter fun x => !(x.team == b.team && x.handle == b.handle) }.dropTxns b.party).engFault b.team b.g
    b.ring 4 (r.byAgent 4)

/-- The memory rows of the next tile. -/
def Sub.tileRuns (b : Sub) : List (DWord × Nat) :=
  (List.range b.rows).flatMap fun (r : Nat) => runs (addOff b.next (r * b.memStride)) b.rowlen

/-- The slot rows of a slot. -/
def Sub.slotRows (b : Sub) (r : Ring) (slot : Nat) : List Nat :=
  (List.range b.rows).map fun i => r.slotOff + slot * 128 * r.slotsz + i * b.slotStride

/-- A tile finished: the slot's arrival, the next tile, and the end of a limited subscription (R195). -/
def State.rootDone (s : State) (b : Sub) (slot : Nat) : State :=
  match s.team? b.team with
  | none => s
  | some t =>
    let bar := (t.ring b.ring).barOff + 16 * slot
    match (s.dropTxns b.party).arriveFor b.team bar 0 (b.rows * b.rowlen) with
    | none => s.rootFail b (s.badArrive b.team bar)
    | some s1 =>
      if b.limited && b.left ≤ 1 then
        let s2 := s1.modTeam b.team fun t => t.setRing3 b.ring { t.ring b.ring with active := false }
        { s2 with subs := s2.subs.filter fun x => !(x.team == b.team && x.handle == b.handle) }
      else
        { s1 with subs := s1.subs.map fun x =>
            if x.team == b.team && x.handle == b.handle then { x with next := x.next + x.step, left := x.left - 1 } else x }

/-- A loader fills its next slot (R195): the slot is taken, the tile written, and its arrival posted. -/
def State.loaderFill (s : State) (b : Sub) : State :=
  match s.team? b.team, (s.team? b.team).bind fun t => s.ctx? t.ctx with
  | some t, some c =>
    let r := t.ring b.ring
    if r.free = 0 then s
    else
      let take := fun (u : State) => u.modTeam b.team fun t =>
        t.setRing3 b.ring { r with free := r.free - 1, put := (r.put + 1) % r.nslot }
      match s.readRanges c (b.who t.core) b.party b.tileRuns with
      | .wait u => u
      | .fault u x => (take u).rootFail b x
      | .done u bs =>
        let rows := b.slotRows r r.put
        let u1 := (take u).modTeam b.team fun t =>
          let w := (rows.zip (List.range rows.length)).foldl
            (fun (m : SMap Byte) (p : Nat × Nat) => winWrite m p.1 ((bs.drop (p.2 * b.rowlen)).take b.rowlen)) t.win
          { t with win := w }.touch (rows.map fun o => (o, b.rowlen)) .other
        u1.rootDone b r.put
  | _, _ => s

/-- A storer writes a handed-over slot to memory (R195). -/
def State.storerDrain (s : State) (b : Sub) : State :=
  match s.team? b.team, (s.team? b.team).bind fun t => s.ctx? t.ctx with
  | some t, some c =>
    let r := t.ring b.ring
    if r.nslot ≤ r.free then s
    else
      let bs := (b.slotRows r r.take).flatMap fun o => winBytes t.win o b.rowlen
      if (b.slotRows r r.take).any fun o => t.eccBad o b.rowlen then s.rootFail b (eccAt (BitVec.ofNat 64 ((b.slotRows r r.take).headD 0)))
      else
      match s.writeRanges c (b.who t.core) b.party b.tileRuns bs with
      | .wait u => u
      | .fault u x => u.rootFail b x
      | .done u _ =>
        (u.modTeam b.team fun t =>
          t.setRing3 b.ring { r with take := (r.take + 1) % r.nslot, free := r.free + 1 }).rootDone b r.take
  | _, _ => s

end Sys2Proof.Machine
end

