-- ==== Sys2Proof/Machine/Coherence.lean ====
section
/-! DEFINITION. Deliveries of loads, walks, instruction fetch, and the messages between L1 slices and homing slices (R24, R39,
R83 to R90, R139, R142 to R144). -/

namespace Sys2Proof.Machine

/-! ### Deliveries (R139) -/

/-- A delivery written to its registers, which become full; lanes outside its mask keep their words (R139, R243). -/
def Group.take (g : Group) (r : Ret) : Group :=
  let g1 := (List.range r.n).foldl
    (fun (h : Group) (j : Nat) =>
      if r.scalar then h.setS (r.d + j) (r.data.getD j 0)
      else
        let h1 := h.writeLanes (r.d + j) r.mask (fun l => r.data.getD (32 * j + l) 0) 32
        match r.tag with | some t => h1.setTag (r.d + j) t | none => h1) g
  let g2 := { g1.setEmptyN r.scalar r.d false r.n with rets := g.rets.filter (·.id != r.id) }
  if r.counted then g2.doneOp 0 r.id else g2

/-- A delivery that met an uncorrectable word leaves its registers empty (R141). -/
def Group.loseRet (g : Group) (r : Ret) : Group :=
  let g1 := { g with rets := g.rets.filter (·.id != r.id) }
  if r.counted then g1.doneOp 0 r.id else g1

/-- LOAD_RETURN: the oldest delivery of a group is written once the grove's L1 has what the group's loads have asked for. One that has
failed leaves its registers empty and raises its code (R58, R141). -/
def execLoadReturn (g : Nat) (s : State) : Host.Outcome State Fault Refusal :=
  .next (match s.group? g with
    | none => s
    | some x =>
      match x.rets with
      | [] => s
      | r :: _ =>
        if s.coh.any fun q => q.g == g && !q.write then s
        else
          match r.fail with
          | some k => (s.modGroup g (·.loseRet r)).asyncFault g k
          | none => s.modGroup g (·.take r))

/-! ### Walks (R24, R39) -/

/-- Walks that a die runs at once (R39). -/
def walkerWidth : Nat := 32

/-- TABLE_WALK: one of the 32 walks that a die runs at once, by its place among the misses waiting. It serves every miss of the die for
its page (R39). -/
def execTableWalk (req : Nat) (s : State) : Host.Outcome State Fault Refusal :=
  .next (match s.walks[req]? with
    | some q =>
      let same := fun (x : WalkReq) => x.die == q.die && x.samePage q
      let before := (s.walks.take req).filter fun x => x.die == q.die && !x.samePage q
      if walkerWidth ≤ (before.map fun x => (x.ctx, x.va.toNat / 65536)).dedup.length then s
      else (s.walks.filter same).foldl State.walk { s with walks := s.walks.filter (!same ·) }
    | none => s)

/-! ### Instruction fetch (R142 to R144) -/

/-- A fetched word, or why there is none. -/
inductive Fetched where
  | word (w : Word)
  | check (c : Check)
  /-- the line has to be filled first -/
  | fill (q : FillReq)
  deriving DecidableEq, Repr

/-- The line of a core's instruction cache for a context. -/
def Core.iline (c : Core) (ctx line : Nat) : Option ILine := c.icache.find? fun i => i.line == line && i.ctx == ctx

/-- The instruction word at a virtual address for the focused group (R142): an EXEC access through the micro-TLB, then the
core's instruction cache. -/
def State.fetchAt (s : State) (va : DWord) : Fetched :=
  if va.toNat % 4 ≠ 0 then .check (.raise (raiseOpnd .misaligned 0 va))
  else
    match s.translate s.cx { agent := 5, core := s.g.core, later := true } va .exec with
    | .raise r => .check (.raise r)
    | .hold leaf => .check (.wait .handover (.handover leaf))
    | .miss q => .check (.walk q)
    | .remote .. => .check (.wait .translation .resource)
    | .hit pa e =>
      let q : FillReq :=
        { core := s.g.core, ctx := s.g.ctx, unit := s.tm.unit, line := lineOf pa, cls := e.cls, home := e.home
          vline := (e.vpage * e.size + pa % e.size) / 128, stop := (e.frame * 65536 + e.size) / 128 }
      match (s.core s.g.core).iline s.g.ctx (lineOf pa) with
      | some i =>
        if i.bad.getLsbD (pa % 128 / 4) then
          (if s.eccBad (pa / 4 * 4) 4 then .check (.raise { code := .eccUncorrectable, va := va }) else .fill q)
        else .word (i.words.getD (pa % 128 / 4) 0)
      | none => .fill q

/-- The words of a line of memory. -/
def lineWords (m : List Host.Cell) (line : Nat) : List Word :=
  (List.range 32).map fun i => BitVec.ofNat 32 (readNat m (line * 128 + 4 * i) 4)

/-- A line of memory as the L2 delivers it to a core's instruction cache (R58, R143). -/
def State.fetchLine (s : State) (ctx line : Nat) : ILine where
  ctx := ctx
  line := line
  words := lineWords s.mem line
  bad := (List.range 32).foldl (fun m i => setBit m i (s.eccBad (line * 128 + 4 * i) 4)) 0

/-- A line installed in a core's instruction cache: 128 sets of 4 ways, the least recently used way goes (R56, R143). -/
def Core.install (c : Core) (i : ILine) : Core :=
  let rest := c.icache.filter fun x => !(x.line == i.line && x.ctx == i.ctx)
  let ways := rest.filter fun x => x.line % 128 == i.line % 128
  let keep := match ways with
    | v :: _ => if 4 ≤ ways.length then rest.erase v else rest
    | [] => rest
  { c with icache := keep ++ [i] }

/-- A line of the instruction cache used: it is now the one most recently used of its set (R143). -/
def Core.useLine (c : Core) (ctx line : Nat) : Core :=
  match c.iline ctx line with
  | some i => { c with icache := c.icache.erase i ++ [i] }
  | none => c

/-- The focused group's fetch at its PC uses the line that holds it. -/
def State.useFetched (s : State) : State :=
  match s.translate s.cx { agent := 5, core := s.g.core, later := true } s.g.pc .exec with
  | .hit pa _ => s.modCore s.g.core fun c => c.useLine s.g.ctx (lineOf pa)
  | _ => s

/-- The cores of a die on which a team of a unit is resident. -/
def State.coresOfUnit (s : State) (die ctx unit : Nat) : List Nat :=
  ((s.allTeams.filter fun t => dieOf t.core == die && t.ctx == ctx && t.unit == unit).map (·.core)).eraseDups

/-- A line delivered to a core; one that the core has not asked for is counted as prefetched (R143, R425). -/
def State.deliverLine (s : State) (line : Nat) (asked : List (Nat × Nat)) (x : Nat × Nat) : State :=
  (if asked.contains x then s else s.pmcCtx x.2 x.1 0x2C 1).modCore x.1 fun c => c.install (s.fetchLine x.2 line)

/-- FETCH_FILL: the die fetch agent reads a line once for every request of its die, delivers it to every core of the die with
a team of the same launch as a request, and prefetches the next line of the page into the requesting cores (R143). -/
def execFetchFill (req : Nat) (s : State) : Host.Outcome State Fault Refusal :=
  .next (match s.fills[req]? with
    | none => s
    | some q =>
      let die := dieOf q.core
      let same := s.fills.filter fun x => x.line == q.line && dieOf x.core == die
      let asked := (same.map fun x => (x.core, x.ctx)).eraseDups
      let given := (asked ++ same.flatMap fun x => (s.coresOfUnit die x.ctx x.unit).map fun k => (k, x.ctx)).eraseDups
      let read := fun (k : Nat) (t : State) =>
        t.homeRead q.ctx { line := q.line + k, vline := q.vline + k, bytes := BitVec.allOnes 128, cls := q.cls, home := q.home }
      let s1 := given.foldl (fun (t : State) (x : Nat × Nat) => t.deliverLine q.line asked x) (read 0 s)
      let ahead := (same.filter fun x => decide (q.line + 1 < x.stop) && ((s1.core x.core).iline x.ctx (q.line + 1)).isNone).map
        fun x => (x.core, x.ctx)
      let s2 := if ahead.isEmpty then s1
        else ahead.eraseDups.foldl (fun (t : State) (x : Nat × Nat) => t.deliverLine (q.line + 1) [] x) (read 1 s1)
      { s2 with fills := s2.fills.filter fun x => !(x.line == q.line && dieOf x.core == die) })

/-! ### Requests and messages (R83 to R90) -/

/-- The homing slice takes the request of a grove for a span of a line, which is the first of its line (R87). -/
def State.cohTake (s : State) (write : Bool) (grove line first n : Nat) : State :=
  match s.cohFirst line with
  | none => s
  | some q => if q.taken || q.write != write || q.grove != grove || q.first != first || q.n != n then s else s.cohAdmit q

/-- GETS (R87). -/
def execGets (grove line first n : Nat) (s : State) : Host.Outcome State Fault Refusal := .next (s.cohTake false grove line first n)
/-- GETW (R87). -/
def execGetw (grove line first n : Nat) (s : State) : Host.Outcome State Fault Refusal := .next (s.cohTake true grove line first n)

/-- COHERENCE_GRANT: the oldest write request of a group whose messages have been acknowledged is granted; 0 stands for requests that
no group waits for (R84, R85). -/
def execCoherenceGrant (g : Nat) (s : State) : Host.Outcome State Fault Refusal :=
  .next (match s.coh.find? fun q => q.g == g && q.write && q.taken && q.msgs.isEmpty with
    | some q => s.cohDone q
    | none => s)

/-- RECALL (R87). -/
def execRecall (grove line : Nat) (mask : BitVec 32) (s : State) : Host.Outcome State Fault Refusal :=
  .next (s.cohMsg line (grove, .recall, mask))
/-- INV (R87). -/
def execInv (grove line : Nat) (mask : BitVec 32) (s : State) : Host.Outcome State Fault Refusal :=
  .next (s.cohMsg line (grove, .inv, mask))
/-- BINV (R87). -/
def execBinv (grove line : Nat) (s : State) : Host.Outcome State Fault Refusal :=
  .next (s.cohMsg line (grove, .binv, 0xFFFFFFFF))

/-- WB: dirty words leave a slice by an eviction (R61, R87). -/
def execWb (grove line : Nat) (mask : BitVec 32) (s : State) : Host.Outcome State Fault Refusal := .next (s.doWb grove line mask)
/-- DROP: clean words leave a slice (R87). -/
def execDrop (grove line : Nat) (mask : BitVec 32) (s : State) : Host.Outcome State Fault Refusal := .next (s.doDrop grove line mask)

end Sys2Proof.Machine
end

