-- ==== Sys2Proof/Machine/Tile.lean ====
section
/-! DEFINITION. Tiles: bound arithmetic (R223, R228), the elements of a handle (R326, R327), conversions into a handle (R206,
R216, R334), and the tile operations that need no array grant (R332 to R335, R341, R349). -/

namespace Sys2Proof.Machine

/-- The partition of a context holds a grove (R432). -/
def Ctx.inPart (c : Ctx) (gr : Nat) : Bool := c.partAll || (c.partDies.getLsbD (gr / 32) && c.partGroves.getLsbD (gr % 32))

/-! ### Bound arithmetic (R223) -/

/-- `m × 2^e` as an f32 rounded upward. -/
def upF32 (m : Nat) (e : Int) : Word := BitVec.ofNat 32 (f32.encode { rnd := 2 } false (.fin false m e)).code

/-- A bound of +Inf. -/
def isInfBound (b : Word) : Bool := decide (infF32.toNat ≤ b.toNat)

/-- A finite bound as a value. -/
def boundVal (b : Word) : Val := f32.decode false b.toNat

/-- A magnitude rounded upward. -/
def Val.up : Val → Word
  | .fin _ m e => upF32 m e
  | _ => infF32

/-- Sum of two bounds. -/
def boundAdd (a b : Word) : Word :=
  if isInfBound a || isInfBound b then infF32 else (Val.add 0 (boundVal a) (boundVal b)).up

/-- Product of two bounds: 0 × +Inf is 0. -/
def boundMul (a b : Word) : Word :=
  if a = 0 ∨ b = 0 then 0
  else if isInfBound a || isInfBound b then infF32
  else (Val.mul (boundVal a) (boundVal b)).up

/-- A bound times `2^k`. -/
def boundScale (b : Word) (k : Int) : Word :=
  if b = 0 then 0 else if isInfBound b then infF32 else ((boundVal b).scale k).up

/-- T_op of R228 for a reduction of depth `k`, times `2^sigma`. -/
def tOp (k : Nat) (ha hb : Handle) (sigma : Int) : Word :=
  boundScale
    (boundMul (upF32 k 0)
      (boundAdd (boundAdd (boundMul ha.hb hb.hm) (boundMul hb.hb ha.hm)) (boundMul ha.hb hb.hb))) sigma

/-- The width term `K · 2^(E + 1 − 32)`, or 65 in place of 32 (R227). -/
def widthTerm (k : Nat) (e : Int) (wide : Bool) : Word := upF32 k (e + 1 - (if wide then 65 else 32))

/-- A value read from a register for a bound: its sign cleared, a NaN taken as +Inf (R238). -/
def boundOfReg (x : Word) : Word :=
  let v := x &&& 0x7FFFFFFF
  if isInfBound v then infF32 else v

/-! ### Elements of a handle (R326, R327) -/

/-- The element format of a tag; `fmt` is the format register of an NF4 tag. -/
def tileFmt (tag : BitVec 5) (fmt : Word) : FFmt :=
  match tag.toNat with
  | 1 => intFmt 32 true
  | 2 => intFmt 32 false
  | 3 => f32
  | 4 => f16
  | 5 => bf16
  | 8 => f64
  | 0x0B => intFmt 8 true
  | 0x0C => intFmt 8 false
  | _ => narrowFmt fmt

/-- An NF4 tag. -/
def isNf4 (tag : BitVec 5) : Bool := decide (16 ≤ tag.toNat)

/-- The format register of an NF4 tag, 0 for any other tag. -/
def Group.tileReg (g : Group) (tag : BitVec 5) : Word := if isNf4 tag then g.fmt (tag.toNat - 16) else 0

/-- A value times `2^(S − 127)`; S = 0xFF makes it NaN (R206). -/
def scaled (sc : Nat) (x : Val) : Val := if sc = 255 then .nan none else x.scale ((sc : Int) - 127)

/-- The scale of a stored element's block; 127 without block scales (R341). -/
def Handle.scaleAt (h : Handle) (w : SMap Byte) (r c : Nat) : Nat :=
  if h.sblk then (winByte w (h.scaleOff r c)).toNat else 127

/-- The code of a stored element. -/
def Handle.codeAt (h : Handle) (w : SMap Byte) (r c : Nat) : Nat := winNat w (h.elemOff r c) (tagBytes h.tag)

/-- The value of a stored element, its scale applied. -/
def Handle.valAt (h : Handle) (w : SMap Byte) (fmt : Word) (ftz : Bool) (r c : Nat) : Val :=
  scaled (h.scaleAt w r c) ((tileFmt h.tag fmt).decode ftz (h.codeAt w r c))

/-- Where logical element (i, j) is stored; the transposition is its own inverse. -/
def Handle.place (h : Handle) (i j : Nat) : Nat × Nat := if h.trans then (j, i) else (i, j)

/-- The value of logical element (i, j). -/
def Handle.lval (h : Handle) (w : SMap Byte) (fmt : Word) (ftz : Bool) (i j : Nat) : Val :=
  h.valAt w fmt ftz (h.place i j).1 (h.place i j).2

/-- The code of logical element (i, j). -/
def Handle.lcode (h : Handle) (w : SMap Byte) (i j : Nat) : Nat := h.codeAt w (h.place i j).1 (h.place i j).2

/-- The larger of a magnitude and that of a value. -/
def magMax (a : Nat × Int) : Val → Nat × Int
  | .fin _ m e => if magGt m e a.1 a.2 then (m, e) else a
  | _ => a

/-- The largest magnitude of a tile, block scales included; none when it holds Inf or NaN. -/
def Handle.measure (h : Handle) (w : SMap Byte) (fmt : Word) : Option (Nat × Int) :=
  (List.range h.rows).foldl
    (fun (o : Option (Nat × Int)) (r : Nat) =>
      (List.range h.cols).foldl
        (fun (o : Option (Nat × Int)) (c : Nat) =>
          match o, h.valAt w fmt false r c with
          | some a, .fin n m e => some (magMax a (.fin n m e))
          | _, _ => none) o) (some (0, 0))

/-- HM of a measured tile (R225, R226). -/
def magBound : Option (Nat × Int) → Word
  | some a => upF32 a.1 a.2
  | none => infF32

/-- Two descriptors of one tile: they differ in bound fields and generation alone. -/
def Handle.sameTile (a b : Handle) : Bool := { a with hm := b.hm, hb := b.hb, hgen := b.hgen } == b

/-- The stored rows' byte ranges, without the scale vector. -/
def Handle.rowRanges (h : Handle) : List (Nat × Nat) := (List.range h.rows).map fun r => (h.elemOff r 0, h.rowBytes)

/-- A source handle as an operation finds it: as the table holds it now, or as captured when it has been redefined since. -/
def Team.source (t : Team) (n : Nat) (h : Handle) : Handle := if (t.handle n).sameTile h then t.handle n else h

/-- A tile written through handle `n`, captured as `h`: its bounds, and what R329 says of every handle that covers the
bytes. -/
def Team.finishTile (t : Team) (n : Nat) (h : Handle) (win : SMap Byte) (l : List (Nat × Nat)) (hb hm : Word) : Team :=
  let t1 := { t with win := win }
  if (t1.handle n).sameTile h then
    (t1.setHandle n { t1.handle n with hb := hb, hm := hm }).touch l (.tile (some n) hb)
  else t1.touch l (.tile none hb)

/-! ### Conversions into a handle (R206, R216) -/

/-- Exponent of the largest finite magnitude of a format. -/
def FFmt.emax (f : FFmt) : Int :=
  if f.fixed then ((max f.hi.natAbs f.lo.natAbs).log2 : Int) + f.fixedQ
  else ((f.magOf f.maxCode).1.log2 : Int) + (f.magOf f.maxCode).2

/-- `block_scale` (R206). -/
def blockScale (f : FFmt) (xs : List Val) : Nat :=
  if xs.any Val.isNan && !f.hasNan then 255
  else
    let es := xs.filterMap fun x => match x with | .fin _ m e => (if m = 0 then none else some ((m.log2 : Int) + e)) | _ => none
    match es with
    | [] => 127
    | e :: t => (min (max (t.foldl max e - f.emax + 127) 1) 254).toNat

/-- What writing a tile comes to. -/
structure TileOut where
  win : SMap Byte
  /-- an element overflowed or saturated -/
  ovf : Bool := false
  flushed : Bool := false
  /-- an element is, or was converted from, Inf or NaN -/
  special : Bool := false
  deriving DecidableEq, Repr

/-- A value has no infinity and no NaN. -/
def Val.finite : Val → Bool
  | .fin .. => true
  | _ => false

/-- Every element of a handle written: `val` gives the exact logical values, `enc` rounds one after its block scale has been
taken out. The dither position is the stored column mod 32 (R210). -/
def Handle.store (h : Handle) (f : FFmt) (rnd : Rnd) (phase : BitVec 5) (val : Nat → Nat → Val)
    (enc : Nat → Nat → Rnd → Val → Coded) (w : SMap Byte) : TileOut :=
  let lv := fun (r c : Nat) => val (h.place r c).1 (h.place r c).2
  (List.range h.rows).foldl
    (fun (o : TileOut) (r : Nat) =>
      let sc : List Nat :=
        if h.sblk then (List.range (h.cols / 32)).map fun b => blockScale f ((List.range 32).map fun k => lv r (32 * b + k)) else []
      let w1 := if h.sblk then winWrite o.win (h.scaleOff r 0) (sc.map (BitVec.ofNat 8)) else o.win
      (List.range h.cols).foldl
        (fun (o : TileOut) (c : Nat) =>
          let s := sc.getD (c / 32) 127
          let x := lv r c
          let y := x.scale (127 - (s : Int))
          let k := enc (h.place r c).1 (h.place r c).2 { rnd with theta := ditherP ((c + phase.toNat) % 32) } y
          { win := winWrite o.win (h.elemOff r c) (bytesOfNat (tagBytes h.tag) k.code)
            ovf := o.ovf || k.ovf
            flushed := o.flushed || k.flushed
            special := o.special || k.special || !x.finite }) { o with win := w1 }) { win := w }

/-- Conversions that R216 makes exact (R228). -/
def convExact (src dst : FFmt) : Bool :=
  (src.kind == .int && dst.kind == .int) || (src == dst && src.kind == .ieee) ||
    (src.kind == .ieee && dst.kind == .ieee && decide (src.ew ≤ dst.ew) && decide (src.mw ≤ dst.mw)) ||
    ((dst == f32 || dst == f64) && src.kind != .int && !src.wideRange)

/-- T_conv of R228 from the largest output magnitude. Where an element was flushed the smallest normal magnitude of the target is
gained, also by a conversion that is otherwise exact (assumption log 43). -/
def tConv (f : FFmt) (dither flushed exact : Bool) (mag : Option (Nat × Int)) : Word :=
  if exact then (if flushed then (Val.fin false 1 f.emin).up else 0)
  else if f.kind = .int then upF32 (if dither then 2 else 1) 0
  else if f.fixed then upF32 1 ((if dither then 1 else 0) - f.bias)
  else
    match mag with
    | none => infF32
    | some (m, e) =>
      let eo : Int := if m = 0 then f.emin else max f.emin ((m.log2 : Int) + e)
      (Val.add 0 (.fin false 1 (eo + 1 - (if dither then (f.mw : Int) else f.mw + 1)))
        (if flushed then .fin false 1 f.emin else .fin false 0 0)).up

/-- RND, SAT and FTZ of a MODE. -/
def roundingOf (mode : Word) : Rnd :=
  { rnd := (mode.extractLsb' 7 3).toNat, sat := mode.getLsbD 11, ftz := mode.getLsbD 10 }

/-- A handle written with converted values: the new window and the bound fields (R227); `base` is the bound the sources
bring. -/
def Handle.convertInto (h : Handle) (fmt : Word) (rnd : Rnd) (phase : BitVec 5) (exact : Bool) (base : Word)
    (val : Nat → Nat → Val) (enc : Nat → Nat → Rnd → Val → Coded) (w : SMap Byte) : SMap Byte × Word × Word :=
  let f := tileFmt h.tag fmt
  let o := h.store f rnd phase val enc w
  let mag := h.measure o.win fmt
  let hb := if o.ovf || o.special then infF32 else boundAdd base (tConv f (rnd.rnd == 4) o.flushed exact mag)
  (o.win, hb, magBound mag)

/-! ### Tile operations without a grant -/

/-- The byte ranges of the window that an operation reads and writes. -/
def TileKind.spans : TileKind → List (Nat × Nat) × List (Nat × Nat)
  | .ld h _ _ _ => ([], h.ranges)
  | .st h _ _ _ => (h.ranges, [])
  | .cvt hd hs _ _ _ _ => (hs.ranges, hd.ranges)
  | .scl hd hs _ _ _ _ _ => (hs.ranges, hd.ranges)
  | .meas h _ _ => (h.ranges, [])
  | .ldw h _ _ => (h.ranges, [])
  | .swp => ([], [])
  | .trn _ _ => ([], [])

/-- As `TileKind.spans`, for array steps. -/
def StepKind.spans : StepKind → List (Nat × Nat) × List (Nat × Nat)
  | .awr h _ _ _ _ => (h.ranges, [])
  | .mma h _ _ _ _ _ _ _ => (h.ranges, [])
  | .ard h _ _ _ _ => ([], h.ranges)
  | .bclr => ([], [])
  | .reissue _ => ([], [])

/-- The handles an operation names. -/
def TileKind.names : TileKind → List Nat
  | .ld _ n _ _ => [n]
  | .st _ n _ _ => [n]
  | .cvt _ _ d s _ _ => [d, s]
  | .scl _ _ d s _ _ _ => [d, s]
  | .meas _ n _ => [n]
  | .ldw _ n _ => [n]
  | .swp => []
  | .trn d s => [d, s]

/-- As `TileKind.names`, for array steps. -/
def StepKind.names : StepKind → List Nat
  | .awr _ n _ _ _ => [n]
  | .mma _ n _ _ _ _ _ _ => [n]
  | .ard _ n _ _ _ => [n]
  | .bclr => []
  | .reissue _ => []

/-- A step of which a part stands at array `a` works in array `b`, of its chain (R344, R347). -/
def ArrayStep.over (x : ArrayStep) (a b : Nat) : Bool := decide (a - x.off ≤ b) && decide (b < a - x.off + x.chainLen)

/-- The steps of an array, started and queued. -/
def ArrayUnit.steps (u : ArrayUnit) : List ArrayStep := u.started.toList ++ u.queue

/-- Every step, with its array. -/
def State.allSteps (s : State) : List (Nat × ArrayStep) := s.arrays.flatMap fun p => p.2.steps.map fun x => (p.1, x)

/-- A step at array `a` whose abandoned re-issue waits to run again: only operations that name its bank wait behind it (R235). -/
def State.setAside (s : State) (a : Nat) (x : ArrayStep) : Bool := x.wantReissue && (s.bank a x.bank).pending

/-- Tile operations of a group before an operation id have all completed (R115), but for those set aside. -/
def State.tilesBefore (s : State) (g id : Nat) : Bool :=
  !(s.tops.any fun x => x.g == g && decide (x.id < id)) &&
    !(s.allSteps.any fun x => x.2.g == g && decide (x.2.id < id) && !s.setAside x.1 x.2)

/-- Some byte range of one list meets one of another. -/
def rangesMeet (a b : List (Nat × Nat)) : Bool := a.any fun x => b.any fun y => meets x y

/-- An outstanding tile operation of the group reads what is about to be written, or writes what is about to be read or
written (R115). -/
def State.tileBusy (s : State) (g : Nat) (rd wr : List (Nat × Nat)) : Bool :=
  let clash := fun (p : List (Nat × Nat) × List (Nat × Nat)) => rangesMeet p.2 (rd ++ wr) || rangesMeet p.1 wr
  (s.tops.any fun x => x.g == g && clash x.kind.spans) || (s.allSteps.any fun x => x.2.g == g && clash x.2.kind.spans)

/-- An outstanding tile operation of the group names a handle. -/
def State.namesHandle (s : State) (g n : Nat) : Bool :=
  (s.tops.any fun x => x.g == g && x.kind.names.contains n) || (s.allSteps.any fun x => x.2.g == g && x.2.kind.names.contains n)

/-- An outstanding step of the group names a bank of an array. -/
def State.namesBank (s : State) (g gr bank : Nat) : Bool :=
  s.allSteps.any fun x => x.2.g == g && x.2.bank == bank && x.2.over x.1 gr

/-- The dither phase after an `ard` or `tcvt` issued under a MODE has rounded its elements; a graft unit sets it for all its
originals (R211, R358). -/
def Group.advancePhase (g : Group) (mode : Word) (rule : Option Word) : Group :=
  if mode.getLsbD 23 && rule.isNone then { g with dphase := g.dphase + 13 } else g

/-- The dither phase as a group holds it when its elements are rounded (R210, R211; assumption log 82). -/
def State.phaseOf (s : State) (k : Nat) : BitVec 5 := match s.group? k with | some g => g.dphase | none => 0

/-- An MMA operation completes; with the last one of a graft unit, the unit leaves the dither phase that its originals leave (R211,
R349, R358). -/
def Group.doneMma (g : Group) (id : Nat) : Group :=
  { g.doneOp 3 id with
    dphase := (g.unitPhase.filter (·.1 == id)).foldl (fun (d : BitVec 5) (p : Nat × BitVec 5) => d + p.2) g.dphase
    unitPhase := g.unitPhase.filter (·.1 != id) }

/-- A tile operation completes (R349). -/
def State.tileEnd (s : State) (x : TileOp) : State :=
  { (((s.dropTxns x.id).dropTxns x.sideParty).modGroup x.g fun g => g.doneMma x.id) with
    tops := s.tops.filter (·.id != x.id) }

/-- A fault met after issue (R333): the destination's bound becomes +Inf, the code is raised at the group's next boundary,
and the operation counts as complete. A unit's fault reports its first original (R368). -/
def State.tileLate (s : State) (x : TileOp) (dst : Option (Nat × Handle)) (r : Raise) : State :=
  let s1 := match dst with
    | some (n, h) => s.modTeam x.team fun t =>
        if (t.handle n).sameTile h then t.setHandle n { t.handle n with hb := infF32 } else t
    | none => s
  ((s1.modGroup x.g fun g => { g with unitPhase := g.unitPhase.filter (·.1 != x.id) }).tileEnd x).modGroup x.g fun g =>
    if g.late.isSome then g
    else
      match x.rule with
      | some w => { g with late := some r, rwrec := w, rwpc := x.pc, replay := [] }
      | none => { g with late := some r }

/-- A tile write through a handle, the G2 term of its unit added (R227). -/
def State.tileWrite (s : State) (x : TileOp) (n : Nat) (h : Handle) (l : List (Nat × Nat)) (r : SMap Byte × Word × Word) : State :=
  (s.modTeam x.team fun t => t.finishTile n h r.1 l (boundAdd r.2.1 x.term) r.2.2).tileEnd x

/-- HB from the 16 bytes of a sidecar (R226). -/
def sidecarBound (bs : List Byte) : Word :=
  let w := fun (i : Nat) => natOfBytes ((bs.drop (4 * i)).take 4)
  if w 2 ≠ 1 ∨ w 3 ≠ 0 then infF32
  else if infF32.toNat < w 0 then infF32
  else BitVec.ofNat 32 (w 0)

/-- Rows of a tile written from consecutive bytes. -/
def Handle.putRows (h : Handle) (w : SMap Byte) (bs : List Byte) : SMap Byte :=
  (List.range h.rows).foldl
    (fun (m : SMap Byte) (r : Nat) => winWrite m (h.elemOff r 0) ((bs.drop (r * h.rowBytes)).take h.rowBytes)) w

/-- The bytes of a tile's rows. -/
def Handle.rowData (h : Handle) (w : SMap Byte) : List Byte :=
  (List.range h.rows).flatMap fun r => winBytes w (h.elemOff r 0) h.rowBytes

/-- `tld` performed (R332, R226). -/
def State.doTld (s : State) (x : TileOp) (h : Handle) (n : Nat) (fmt : Word) (side : Bool) : State :=
  match s.team? x.team, s.ctx? x.ctx with
  | some t, some c =>
    if s.storeAhead (groveOf x.core) (pieceLines (x.sideAt ++ x.pieces)) then s
    else
    match s.remoteState x.id false (remTxns x.id 0 false c.jobTag (x.sideAt ++ x.pieces) []) with
    | .wait u => u
    | .fault u r => u.tileLate x (some (n, h)) r
    | .done u a =>
      if (x.sideAt ++ x.pieces).any u.eccPiece then
        u.tileLate x (some (n, h)) { code := .eccUncorrectable }
      else
        let bs := gatherBytes u.mem (x.sideAt ++ x.pieces) a
        let u1 := u.readLines c.num (x.sideAt ++ x.pieces)
        let win := h.putRows t.win (if side then bs.drop 16 else bs)
        let mag := h.measure win fmt
        let hb := if mag.isNone then infF32 else if side then sidecarBound (bs.take 16) else 0
        u1.tileWrite x n h h.rowRanges (win, hb, magBound mag)
  | _, _ => s.tileEnd x

/-- The three updates of a sidecar: word, operation code of R159, operand (R226). -/
def sideOps (h : Handle) : List (Nat × Nat × Word) := [(0, 2, h.hb), (4, 2, h.hm), (8, 4, 1)]

/-- The sidecar updates of a `tst`, after its rows (R226). -/
def State.doSide (s : State) (x : TileOp) (h : Handle) : State :=
  match s.ctx? x.ctx, x.sideAt with
  | some c, [.loc pa n ctx vline cls home] =>
    if s.eccPiece (.loc pa n ctx vline cls home) then s.tileLate x none { code := .eccUncorrectable }
    else
      ((sideOps h).foldl
        (fun (v : State) (o : Nat × Nat × Word) =>
          let old := readNat v.mem (pa + o.1) 4
          v.storeBytes (pa + o.1) (bytesOfNat 4 ((rmw o.2.1 1 old o.2.2.toNat 0).getD old)))
        (s.writeLines c.num [.loc pa 12 ctx vline cls home])).tileEnd x
  | some c, [.rem pkg off _ va] =>
    match s.remoteState x.sideParty true ((sideOps h).map fun o =>
        { id := 0, owner := x.sideParty, write := true, op := 1 + 16 * o.2.1 + 1, pkg := pkg, off := off + o.1, tag := c.jobTag
          size := 4, data := bytesOfNat 4 o.2.2.toNat, va := va + BitVec.ofNat 64 o.1 }) with
    | .wait u => u
    | .fault u r => u.tileLate x none r
    | .done u _ => u.tileEnd x
  | _, _ => s.tileEnd x

/-- `tst` performed (R332): the rows, then the sidecar. -/
def State.doTst (s : State) (x : TileOp) (h : Handle) (n : Nat) : State :=
  match s.team? x.team, s.ctx? x.ctx with
  | some t, some c =>
    let src := t.source n h
    if s.storeAhead (groveOf x.core) (pieceLines (x.pieces ++ x.sideAt)) then s
    else if x.pieces = [] then s.doSide x src
    else
      let bs := h.rowData t.win
      match s.remoteState x.id true (remTxns x.id 0 true c.jobTag x.pieces bs) with
      | .wait u => u
      | .fault u r => u.tileLate x none r
      | .done u _ =>
        let u1 := (u.writeLines c.num x.pieces).storePieces x.pieces bs
        let y := { x with pieces := [] }
        if x.sideAt = [] then u1.tileEnd y
        else { u1 with tops := u1.tops.map fun (z : TileOp) => if z.id == x.id then y else z }.doSide y src
  | _, _ => s.tileEnd x

/-- Where source and destination of a conversion overlap without being one and the same tile, the overlapping destination
bytes are free values and the bound is +Inf (R334). -/
def State.tileOverlap (s : State) (x : TileOp) (d : Nat) (hd hs : Handle) (fd : Word) (r : SMap Byte × Word × Word) : State :=
  if hs.hit hd.ranges && !(hs.ranges == hd.ranges && hs.tag == hd.tag && hs.trans == hd.trans) then
    let offs := hd.ranges.flatMap fun a =>
      (rangeFrom a.1 a.2).filter fun o => hs.ranges.any fun b => decide (b.1 ≤ o) && decide (o < b.1 + b.2)
    let (fb, s1) := s.freeBytes offs.length
    let win := (offs.zip fb).foldl (fun (w : SMap Byte) (p : Nat × Byte) => winWrite w p.1 [p.2]) r.1
    s1.tileWrite x d hd hd.ranges (win, infF32, magBound (hd.measure win fd))
  else s.tileWrite x d hd hd.ranges r

/-- A source element that FTZ reads as zero (R213). -/
def Handle.readFlushed (h : Handle) (w : SMap Byte) (fmt : Word) (ftz : Bool) (i j : Nat) : Bool :=
  ftz && (h.lval w fmt true i j).isZero && !(h.lval w fmt false i j).isZero

/-- `tcvt` performed (R334). -/
def State.doTcvt (s : State) (x : TileOp) (hd hs : Handle) (d n : Nat) (fd fs : Word) : State :=
  match s.team? x.team with
  | none => s.tileEnd x
  | some t =>
    let src := tileFmt hs.tag fs
    let dst := tileFmt hd.tag fd
    let rnd := roundingOf x.mode
    let r := { rnd with ftz := rnd.ftz && !(src.kind == .narrow || dst.kind == .narrow) }
    let same : Bool := src == dst && src.kind == .ieee
    let enc := fun (i j : Nat) (r : Rnd) (v : Val) =>
      let k := if same then convertCode src dst r (hs.lcode t.win i j) else dst.encode r (src.kind == .int) v
      { k with flushed := k.flushed || hs.readFlushed t.win fs r.ftz i j }
    (s.tileOverlap x d hd hs fd
      (hd.convertInto fd r (s.phaseOf x.g) (convExact src dst) (t.source n hs).hb (fun i j => hs.lval t.win fs r.ftz i j) enc
        t.win)).modGroup x.g fun g => g.advancePhase x.mode x.rule

/-- `tscl` performed (R335). -/
def State.doTscl (s : State) (x : TileOp) (hd hs : Handle) (d n : Nat) (fd fs c : Word) : State :=
  match s.team? x.team with
  | none => s.tileEnd x
  | some t =>
    let dst := tileFmt hd.tag fd
    let r := (roundingOf x.mode).plain
    let cv := f32.decode r.ftz c.toNat
    let enc := fun (i j : Nat) (r : Rnd) (v : Val) =>
      let k := dst.encode r false v
      { k with flushed := k.flushed || hs.readFlushed t.win fs r.ftz i j }
    s.tileOverlap x d hd hs fd
      (hd.convertInto fd r 0 false (boundMul (boundOfReg c) (t.source n hs).hb)
        (fun i j => cv.mul (hs.lval t.win fs r.ftz i j)) enc t.win)

/-- `tdef.meas` performed (R328). -/
def State.doMeas (s : State) (x : TileOp) (h : Handle) (n : Nat) (fmt : Word) : State :=
  (s.modTeam x.team fun t =>
    if (t.handle n).sameTile h then
      match h.measure t.win fmt with
      | some a => t.setHandle n { t.handle n with hm := upF32 a.1 a.2 }
      | none => t.setHandle n { t.handle n with hm := infF32, hb := infF32 }
    else t).tileEnd x

/-- The plane that `ldw` makes of a handle (R341). -/
def Handle.plane (h : Handle) (w : SMap Byte) (n team g ctx : Nat) (fmt : Word) (src : Handle) : Plane :=
  { k := h.lrows
    n := h.lcols
    tag := h.tag
    fmt := fmt
    elems := (List.range h.lrows).flatMap fun k => (List.range h.lcols).map fun j => BitVec.ofNat 64 (h.lcode w k j)
    scales := if h.sblk then winBytes w h.scoff.toNat (h.rows * h.cols / 32) else []
    srcH := n
    srcTeam := team
    src := src
    owner := g
    ownerCtx := ctx }

/-- The value of element (k, j) of a plane. -/
def Plane.val (p : Plane) (k j : Nat) : Val :=
  let sc := if p.scales.isEmpty then 127 else (p.scales.getD (j * (p.k / 32) + k / 32) 127).toNat
  scaled sc ((tileFmt p.tag p.fmt).decode false (p.elems.getD (k * p.n + j) 0).toNat)

/-- The plane pair of a core position changed. -/
def State.modPlanes (s : State) (gr pos : Nat) (f : PlanePair → PlanePair) : State :=
  s.modArray gr fun u => { u with planes := SMap.modify {} u.planes pos f }

/-- The plane pair of a core position. -/
def State.planes (s : State) (gr pos : Nat) : PlanePair := SMap.get {} (s.array gr).planes pos

/-- `ldw` performed (R341). -/
def State.doLdw (s : State) (x : TileOp) (h : Handle) (n : Nat) (fmt : Word) : State :=
  match s.team? x.team with
  | none => s.tileEnd x
  | some t =>
    (s.modPlanes (groveOf x.core) (x.core % 4) fun p =>
      { p with shadow := some (h.plane t.win n x.team x.g x.ctx fmt (t.source n h)) }).tileEnd x

/-- A product that uses the front plane of a core position has not ended (R342, R345); `before` bounds the operations asked
about. -/
def State.planeInUse (s : State) (gr pos before : Nat) : Bool :=
  s.allSteps.any fun x =>
    x.2.pos == pos && x.2.over x.1 gr && decide (x.2.id < before) && !x.2.wantReissue &&
      (match x.2.kind with | .mma .. => true | _ => false)

/-- The planes of a core position swapped (R342). -/
def State.swapPlanes (s : State) (core : Nat) : State :=
  s.modPlanes (groveOf core) (core % 4) fun p => { front := p.shadow, shadow := p.front }

/-- `ttrans` of a graft unit completed: the bounds follow its source (R330, R358). -/
def State.doTrn (s : State) (x : TileOp) (d n : Nat) : State :=
  (s.modTeam x.team fun t =>
    let h := t.handle n
    if (t.handle d).sameTile { h with trans := !h.trans } then
      t.setHandle d { t.handle d with hm := h.hm, hb := boundAdd h.hb x.term }
    else t).tileEnd x

/-- The destination handle of a conversion. -/
def TileKind.dst : TileKind → Option (Nat × Handle)
  | .cvt hd _ d .. => some (d, hd)
  | .scl hd _ d .. => some (d, hd)
  | _ => none

/-- An operation reads a window word with an uncorrectable error (R58). -/
def State.tileEcc (s : State) (x : TileOp) : Bool :=
  match s.team? x.team with
  | some t => x.kind.spans.1.any fun r => t.eccBad r.1 r.2
  | none => false

/-- The virtual range of a part. -/
def Piece.range : Piece → DWord × Nat
  | .loc pa n _ vline _ _ => (BitVec.ofNat 64 (vline * 128 + pa % 128), n)
  | .rem _ _ n va => (va, n)

/-- A transfer that had issued and not started when its context was saved is translated at its start (R351). -/
def State.refresh (s : State) (x : TileOp) : UnitRes TileOp :=
  let kind : AccKind := match x.kind with | .st .. => .write | _ => .read
  match s.ctx? x.ctx with
  | none => .done s { x with stale := false }
  | some c =>
    let w : Who := { core := x.core, later := true }
    match s.pieces c w kind (x.pieces.map (·.range)), s.pieces c w kind (x.sideAt.map (·.range)) with
    | .ok ps, .ok qs => .done s { x with pieces := ps, sideAt := qs, stale := false }
    | .error y, _ => s.unitXlat y
    | _, .error y => s.unitXlat y

/-- A tile operation whose memory is translated, performed. -/
def State.doTileAt (s : State) (x : TileOp) : State :=
  match x.kind with
  | .ld h n fmt side => s.doTld x h n fmt side
  | .st h n _ _ => s.doTst x h n
  | .cvt hd hs d n fd fs => s.doTcvt x hd hs d n fd fs
  | .scl hd hs d n fd fs c => s.doTscl x hd hs d n fd fs c
  | .meas h n fmt => s.doMeas x h n fmt
  | .ldw h n fmt => s.doLdw x h n fmt
  | .swp => (s.swapPlanes x.core).tileEnd x
  | .trn d n => s.doTrn x d n

/-- A tile operation performed. -/
def State.doTile (s : State) (x : TileOp) : State :=
  if s.tileEcc x then s.tileLate x x.kind.dst { code := .eccUncorrectable }
  else if x.stale then
    match s.refresh x with
    | .wait t => t
    | .fault t r => t.tileLate x (match x.kind with | .ld h n .. => some (n, h) | _ => none) r
    | .done t y => { t with tops := t.tops.map fun (z : TileOp) => if z.id == y.id then y else z }.doTileAt y
  else s.doTileAt x

/-- A plane load or a swap. -/
def TileKind.onPlanes : TileKind → Bool
  | .ldw .. => true
  | .swp => true
  | _ => false

/-- A tile operation is next: those of its group come in program order, and plane loads in the order of their core (R115,
R342). -/
def State.tileReady (s : State) (x : TileOp) : Bool :=
  s.tilesBefore x.g x.id &&
    (match x.kind with
    | .ldw .. => !s.tops.any fun y => y.core == x.core && decide (y.id < x.id) && y.kind.onPlanes
    | .swp => !(s.tops.any fun y => y.core == x.core && decide (y.id < x.id) && y.kind.onPlanes) &&
        !s.planeInUse (groveOf x.core) (x.core % 4) x.id
    | _ => true)

/-- A transfer of a context whose rows have been translated and not yet moved. -/
def TileOp.inFlight (x : TileOp) (ctx : Nat) : Bool :=
  x.ctx == ctx && !x.stale && (x.pieces ++ x.sideAt).any fun p => match p with | .loc .. => true | .rem .. => false

/-- The transfers of a context carried out now, in issue order, as far as each is next in its group (R115). -/
def State.drainTiles (s : State) (ctx : Nat) : State :=
  (s.tops.filter (·.inFlight ctx)).foldl
    (fun (t : State) (x : TileOp) =>
      match t.tops.find? (·.id == x.id) with | some y => (if t.tileReady y then t.doTile y else t) | none => t) s

end Sys2Proof.Machine
end

