-- ==== Sys2Proof/Machine/Shoot.lean ====
section
/-! DEFINITION. The steps of a shootdown (R41 to R48). -/

namespace Sys2Proof.Machine

/-- The translation caches of a context: groves of its partition, the walk caches of the four dies, which serve root streamers
wherever the partition lies (128 up), the root TLBs (132 up) (R38, R39, R43 step 2). -/
def Ctx.shootTargets (c : Ctx) : List Nat := ((List.range 128).filter c.inPart) ++ rangeFrom 128 16

/-- A cache drops its entries of a context in a range and records the generation (R43 step 3). -/
def State.invTarget (s : State) (ctx lo hi : Nat) (gen : BitVec 16) (target : Nat) : State :=
  if target < 128 then
    let s1 := s.modGrove target fun g => { g with gtlb := tlbDrop ctx lo hi g.gtlb, gens := SMap.set 0 g.gens ctx gen }
    (rangeFrom (target * 4) 4).foldl
      (fun (t : State) (c : Nat) => t.modCore c fun x => { x with utlb := tlbDrop ctx lo hi x.utlb }) s1
  else if target < 132 then
    s.modDie (target - 128) fun d => { d with walkCache := d.walkCache.filter (·.ctx != ctx), walkGens := SMap.set 0 d.walkGens ctx gen }
  else
    let k := target - 132
    { s with
      rootTlb := SMap.modify [] s.rootTlb k (tlbDrop ctx lo hi)
      rootGens := SMap.set 0 s.rootGens (k * 65536 + ctx) gen }

/-- The lines that a grove has pinned under pages of a context in a range (R31). -/
def Grove.pinsIn (g : Grove) (ctx lo hi : Nat) : List (Nat × Nat × Nat) :=
  g.pins.filter fun p => p.2.1 == ctx && decide (lo ≤ p.2.2 * 65536) && decide (p.2.2 * 65536 < hi)

/-- What a party does before it acknowledges (R43 step 5, R31): pinned lines in the range are written back and become ordinary,
monitors in it are lost. -/
def State.ackTarget (s : State) (ctx lo hi target : Nat) : State :=
  if target < 128 then
    let gone := (s.grove target).pinsIn ctx lo hi
    let lines := ((s.grove target).lru.map (·.line)).filter fun l => gone.any (·.1 == l / 512)
    let s1 := lines.foldl
      (fun (t : State) (l : Nat) =>
        let back := (t.grove target).wDirty l
        (t.modGrove target fun g => g.modWords l back fun x => { x with dirty := 0 }).l2Merge l back) s
    let s2 := s1.modGrove target fun g => { g with pins := g.pins.filter (!gone.contains ·) }
    let lost := s2.groups.filter fun g => groveOf g.core == target && g.ctx == ctx &&
      (match g.mon with | some m => m.cause.isNone && decide (lo < m.va + 4 * m.words) && decide (m.va < hi) | none => false)
    lost.foldl (fun (t : State) (g : Group) => t.loseMonitor g.key 3) s2
  else if target < 132 then
    s.modDie (target - 128) fun d =>
      { d with l2 := d.l2.map fun p =>
          (p.1, p.2.map fun x =>
            if x.ctx == ctx && x.pinned && decide (lo ≤ x.vline * 128) && decide (x.vline * 128 < hi) then
              { x with pinned := false, dirty := 0 }
            else x) }
  else s

/-- The sequencer accepts the oldest shootdown of a context: GEN advances, and a wrap covers the whole region (R42, R43). -/
def State.shootAccept (s : State) (ctx : Nat) : State :=
  match s.ctx? ctx, s.shoots.find? (·.ctx == ctx) with
  | some c, some q =>
    if q.accepted then s
    else
      let gen := c.gen + 1
      let q' := { q with
        accepted := true, gen := gen, toInv := c.shootTargets, toAck := c.shootTargets,
        lo := if gen = 0 then 0 else q.lo, hi := if gen = 0 then 2 ^ 54 else q.hi }
      { (s.modCtx ctx fun c => { c with gen := gen }) with shoots := s.shoots.map fun x => if x = q then q' else x }
  | _, _ => s

/-- The accepted shootdown of a context. -/
def State.shoot? (s : State) (ctx : Nat) : Option Shoot := s.shoots.find? fun x => x.ctx == ctx && x.accepted

/-- A target processes the invalidation. -/
def State.shootInv (s : State) (ctx target : Nat) : State :=
  match s.shoot? ctx with
  | some q =>
    if q.toInv.contains target then
      { (s.invTarget ctx q.lo q.hi q.gen target) with
        shoots := s.shoots.map fun x => if x = q then { x with toInv := x.toInv.erase target } else x }
    else s
  | none => s

/-- The sequencer has accepted the `tlbinv` of a group, which has to end before the group stops (R43, R152). -/
def State.groupSkids (s : State) (k : Nat) : Bool :=
  match s.group? k with
  | none => false
  | some g => g.inProgress && (match s.shoot? g.ctx with | some q => q.g == some k | none => false)

/-- A group about to stop: a `tlbinv` that still waits at the sequencer is withdrawn and will be issued again (R43, R152). -/
def State.settleShoot (s : State) (k : Nat) : State :=
  match s.group? k with
  | none => s
  | some g =>
    if !g.inProgress || !s.shoots.any (·.g == some k) || s.groupSkids k then s
    else
      { (s.modGroup k fun g => { g with inProgress := false }) with shoots := s.shoots.filter fun x => x.g != some k }

/-- A group that STEP has released stops again where it stands: frozen if it was frozen, else stopped (R418). -/
def State.restop (s : State) (k : Nat) : State :=
  match s.group? k with
  | none => s
  | some g =>
    if !g.stepping then s
    else if g.st = .ended ∨ g.st = .stopped ∨ g.st = .frozen then
      s.modGroup k fun g => { g with stepping := false, freezeReq := false }
    else
      ((s.settleShoot k).withFocus k State.traceStop).modGroup k fun g =>
        { g with st := if g.freezeReq then .frozen else .stopped, stLeft := g.st, stepping := false, freezeReq := false, stopCause := 3 }

/-- The issuing group of a completed shootdown goes on (R43 step 6); one that STEP has released stops again. -/
def State.shootDone (s : State) (q : Shoot) : State :=
  let s1 := { s with shoots := s.shoots.filter (· ≠ q) }
  match q.g with
  | none => s1
  | some k =>
    match s1.group? k with
    | some g =>
      if g.inProgress then
        (s1.withFocus k fun t => (t.modG fun g => { g with inProgress := false }).retireBehind (t.g.pc + 4)).restop k
      else s1
    | none => s1

/-- No access translated before the shootdown is on its way: stores that wait for a grant, queued atomics, tile transfers and
line fills are the accesses that do not reach their home at once (R43 step 4, R44). -/
def State.drained (s : State) (ctx : Nat) : Bool :=
  !(s.pend.any (·.ctx == ctx)) && !(s.groves.any fun p => p.2.svcq.any (·.ctx == ctx)) && !s.tops.any (·.inFlight ctx) &&
    !s.fills.any (·.ctx == ctx)

/-- A target acknowledges; the last acknowledgement completes the shootdown. -/
def State.shootAck (s : State) (ctx target : Nat) : State :=
  match s.shoot? ctx with
  | some q =>
    if q.toAck.contains target && !q.toInv.contains target && s.drained ctx then
      let q' := { q with toAck := q.toAck.erase target }
      let s1 := { (s.ackTarget ctx q.lo q.hi target) with shoots := s.shoots.map fun x => if x = q then q' else x }
      if q'.toAck = [] then s1.shootDone q' else s1
    else s
  | none => s

/-- The accesses of a context that are on their way brought home, as far as that needs no other package; a line fill is dropped, to
be asked for again. -/
def State.drainCtx (s : State) (ctx : Nat) : State :=
  let t := (s.drainAtoms ctx).drainTiles ctx
  { t with fills := t.fills.filter (·.ctx != ctx) }

/-- A shootdown of the context can be brought to its end now. -/
def State.canShoot (s : State) (ctx : Nat) : Bool := (s.drainCtx ctx).drained ctx

/-- An accepted shootdown of a context brought to its end. -/
def State.shootFinish (s : State) (ctx : Nat) : State :=
  match s.shoot? ctx with
  | none => s
  | some q =>
    let s2 := q.toInv.foldl (fun (t : State) (x : Nat) => t.shootInv ctx x) (s.drainCtx ctx)
    q.toAck.foldl (fun (t : State) (x : Nat) => t.shootAck ctx x) s2

/-- The heartwood core's own shootdown of a range, whole (R42, R48). It is done while `canShoot` holds. -/
def State.shootAll (s : State) (ctx lo hi : Nat) : State :=
  let q : Shoot := { ctx := ctx, g := none, lo := lo, hi := hi }
  let s1 := s.shootFinish ctx
  ({ s1 with shoots := q :: s1.shoots }.shootAccept ctx).shootFinish ctx

end Sys2Proof.Machine
end

