-- ==== Sys2Proof/Machine/Array.lean ====
section
/-! DEFINITION. Arrays: banks and their bounds (R224, R229 to R236), products (R218 to R220, R343, R345), and the arbiter
(R347, R348). -/

namespace Sys2Proof.Machine

/-! ### Banks -/

/-- The format of a bank's elements. -/
def Bank.fmt (b : Bank) : FFmt := if b.paired then a80 else a40

/-- Element (r, c) of a bank. -/
def Bank.val (b : Bank) (r c : Nat) : Val := b.fmt.decode false (b.elem (64 * r + c)).toNat

/-- Element (r, c) written. -/
def Bank.put (b : Bank) (r c : Nat) (v : Val) : Bank := b.setElem (64 * r + c) (BitVec.ofNat 80 (b.fmt.step v))

/-- The elements that may differ from +0. -/
def Bank.vals (b : Bank) : List Val :=
  match b.freeFrom with
  | none => b.elems.map fun p => b.fmt.decode false p.2.toNat
  | some _ => (List.range 4096).map fun i => b.fmt.decode false (b.elem i).toNat

/-- EMAX (R224). -/
def Bank.emax (b : Bank) : Nat :=
  if b.vals.any fun v => !v.finite then 255
  else
    match (b.vals.filter (!·.isZero)).map Val.ilog2 with
    | [] => 0
    | e :: t => (min (max (t.foldl max e + 127) 1) 254).toNat

/-- E_bank (R224). -/
def Bank.exponent (b : Bank) : Int :=
  match b.emax with
  | 0 => -126
  | 255 => 128
  | n => (n : Int) - 127

/-- BSTAT (R224). -/
def Bank.status (b : Bank) : Word :=
  BitVec.ofNat 32
    ((if b.paired then 2 ^ 31 else 0) + (if b.pending then 2 ^ 30 else 0) + (if b.isSealed then 2 ^ 29 else 0) +
      (if b.chained then 2 ^ 28 else 0) + b.emax * 2 ^ 16 + b.logcnt % 32 * 2 ^ 8 + (if b.baseTile then 16 else 0) + b.reiss % 16)

/-- The log and the elements restarted (R227, R230). -/
def Bank.restart (b : Bank) (bnd : Word) : Bank :=
  { b with
    elems := [], freeFrom := none, bnd := bnd, isSealed := false, chained := false, pending := false, logcnt := 0
    baseTile := false, reiss := 0, log := [], baseH := none, baseRect := (0, 0) }

/-- The bound is +Inf while an element is Inf or NaN (R227). -/
def Bank.saneBound (b : Bank) : Bank := if b.emax = 255 then { b with bnd := infF32 } else b

/-- The test of R229 under a MODE. -/
def Bank.exceeded (b : Bank) (mode : Word) : Bool :=
  let t := (mode.extractLsb' 15 6).toNat
  decide (t ≠ 0) &&
    (isInfBound b.bnd ||
      (match boundVal b.bnd with
      | .fin _ m e => magGt m e 1 (b.exponent - t)
      | _ => true))

/-! ### Products (R218, R340, R343) -/

/-- The class of an `mma` (R340). -/
inductive MmaClass where
  | f64 | f32 | h16 | n8 | n4
  deriving DecidableEq, Repr

/-- Largest plane K of a class. -/
def MmaClass.maxK : MmaClass → Nat
  | .f64 => 16 | .f32 => 32 | .h16 => 64 | .n8 => 256 | .n4 => 512

/-- A intake of a class, in bytes per cycle (R348). -/
def MmaClass.intake : MmaClass → Nat
  | .f64 => 128 | .f32 => 128 | .h16 => 128 | .n8 => 256 | .n4 => 512

/-- The class of a pair of tags (R340). -/
def mmaClass (ta tb : BitVec 5) (fa fb : Word) : Option MmaClass :=
  if ta = 8 ∧ tb = 8 then some .f64
  else if ta = 3 ∧ tb = 3 then some .f32
  else if (ta = 4 ∧ tb = 4) ∨ (ta = 5 ∧ tb = 5) then some .h16
  else if isNf4 ta ∧ isNf4 tb then
    if (narrowFmt fa).width ≤ 4 ∧ (narrowFmt fb).width ≤ 4 then some .n4 else some .n8
  else none

/-- The capacity class of a plane, by its own tag and width (R340). -/
def planeClass (t : BitVec 5) (f : Word) : Option MmaClass := mmaClass t t f f

/-- Array cycles of an `mma`, or of one array of an `mmac` chain (R348). -/
def mmaCycles (chainLen m e k intake : Nat) : Nat := 16 + 8 * (chainLen - 1) + m * ((e * k + intake - 1) / intake)

/-- Array cycles of `awr` and `ard` (R348). -/
def rowCycles (h : Handle) : Nat := 16 + h.lrows * ((tagBytes h.tag * h.lcols + 127) / 128)

/-- Exponent of a partial sum, at least −126 (R228). -/
def Val.sumExp : Val → Int
  | .fin _ m e => if m = 0 then -126 else max (-126) ((m.log2 : Int) + e)
  | _ => -126

/-- One output element: the first `n` products added in ascending order, each sum rounded once (R218); with the largest
exponent of a partial sum. -/
def macElem (f : FFmt) (x y : Nat → Val) (acc : Val) : Nat → Val × Int
  | 0 => (acc, -126)
  | n + 1 =>
    let r := macElem f x y acc n
    let v := f.decode false (f.step (Val.add 0 r.1 ((x n).mul (y n))))
    (v, max r.2 v.sumExp)

/-- The rectangle of a product (R343): the bank written, the largest exponent, and the partial values passed on. -/
def Bank.mac (b : Bank) (f : FFmt) (start : Nat → Nat → Val) (x y : Nat → Nat → Val) (rb cb m n k : Nat) :
    Bank × Int × List Val :=
  (List.range (m * n)).foldl
    (fun (o : Bank × Int × List Val) (q : Nat) =>
      let i := q / n
      let j := q % n
      let r := macElem f (x i) (fun kk => y kk j) (start i j) k
      (o.1.put (16 * rb + i) (16 * cb + j) r.1, max o.2.1 r.2, o.2.2 ++ [r.1])) (b, -126, [])

/-- The factor `(-1)^NEG × 2^sigma` applied. -/
def foldFactor (neg : Bool) (sigma : Int) (v : Val) : Val := (if neg then v.negate else v).scale sigma

/-- A contribution logged (R230). -/
def Bank.append (b : Bank) (c : Contrib) : Bank :=
  if b.logcnt < 16 then { b with log := b.log ++ [c], logcnt := b.logcnt + 1 } else { b with logcnt := 17 }

/-! ### Re-issue (R232, R233) -/

/-- A partner that cannot be claimed: owned, or held for another bank (R232). -/
def State.partnerBusy (s : State) (gr n : Nat) : Bool :=
  let p := s.bank gr (partnerOf n)
  p.owner.isSome || p.heldFor.isSome

/-- A logged handle is no longer what the log says (R232). -/
def State.handleChanged (s : State) (team n : Nat) (h : Handle) : Bool :=
  match s.team? team with
  | none => true
  | some t => !((t.handle n).sameTile h) || (t.handle n).hgen != h.hgen

/-- The team of a bank's owner. -/
def State.bankTeam (s : State) (b : Bank) : Nat :=
  match b.owner.bind s.group? with
  | some g => g.team
  | none => 0

/-- The first condition of R232 that refuses a re-issue under a MODE, 0 for none. -/
def State.refusal (s : State) (gr n : Nat) (mode : Word) : Nat :=
  let b := s.bank gr n
  let own := s.bankTeam b
  if !mode.getLsbD 21 then 1
  else if b.logcnt = 17 then 2
  else if b.isSealed then 3
  else if b.chained then 4
  else if (b.log.any fun c => isInfBound c.aH.hb || isInfBound c.aH.hm || isInfBound c.bH.hb || isInfBound c.bH.hm) ||
      (match b.baseH with | some (_, _, h, _) => isInfBound h.hb | none => false) then 5
  else if (b.log.any fun c => s.handleChanged own c.hA c.aH || s.handleChanged c.bTeam c.hBnum c.bH) ||
      (match b.baseH with | some (k, t, h, _) => s.handleChanged t k h | none => false) then 6
  else if !b.paired && s.partnerBusy gr n then 7
  else 0

/-- A base tile put into a bank (R233 step 2, R339). -/
def Bank.putTile (b : Bank) (h : Handle) (w : SMap Byte) (fmt : Word) (rb cb : Nat) : Bank :=
  (List.range (h.lrows * h.lcols)).foldl
    (fun (b : Bank) (q : Nat) =>
      b.put (16 * rb + q / h.lcols) (16 * cb + q % h.lcols) (h.lval w fmt false (q / h.lcols) (q % h.lcols))) b

/-- Array cycles of a contribution as it was first performed. -/
def Contrib.cycles (c : Contrib) : Nat :=
  mmaCycles 1 c.m (tagBytes c.aH.tag) c.k (((mmaClass c.aH.tag c.bH.tag c.aFmt c.bFmt).getD .h16).intake)

/-- One logged contribution repeated in A80 (R220, R233 steps 3 and 5). -/
def State.repeatContrib (s : State) (own : Nat) (b : Bank) (c : Contrib) : Bank :=
  match s.team? own, s.team? c.bTeam with
  | some ta, some tb =>
    let r := b.mac a80 (fun i j => b.val (16 * c.rb + i) (16 * c.cb + j))
      (fun i k => foldFactor c.neg c.sigma (c.aH.lval ta.win c.aFmt false i (c.kLo + k)))
      (fun k j => c.bH.lval tb.win c.bFmt false k j) c.rb c.cb c.m c.n c.k
    { r.1 with bnd := boundAdd (boundAdd (boundAdd b.bnd (widthTerm c.k r.2.1 true)) (tOp c.k c.aH c.bH c.sigma)) c.term }
  | _, _ => b

/-- A bank as a re-issue begins to recompute it: the base in A80, with its bound (R233 step 2). -/
def State.reissueBase (s : State) (b : Bank) : Bank :=
  let b0 : Bank := { b with elems := [], freeFrom := none, paired := true, pending := false, bnd := 0 }
  match b.baseH with
  | some (_, t, h, f) =>
    match s.team? t with
    | some tm => { b0.putTile h tm.win f b.baseRect.1 b.baseRect.2 with bnd := h.hb }
    | none => b0
  | none => b0

/-- What a re-issue commits into the bank: its elements and bound, PAIRED, and REISS one higher (R233 steps 4 to 6). -/
def Bank.commit (b w : Bank) : Bank :=
  ({ b with elems := w.elems, freeFrom := none, bnd := w.bnd, paired := true, reiss := min (b.reiss + 1) 15 } : Bank).saneBound

/-! ### The arbiter (R347) -/

/-- Some bank a step works on waits for its abandoned re-issue (R235). -/
def State.stepPending (s : State) (gr : Nat) (x : ArrayStep) : Bool :=
  !x.wantReissue && (rangeFrom gr x.chainLen).any fun a => (s.bank a x.bank).pending

/-- A queued step waits only for the grant: one that has begun in the west of its chain goes on whatever the halt line says (R347,
R351). -/
def State.stepFree (s : State) (gr : Nat) (x : ArrayStep) : Bool := decide (0 < x.off) || (s.ctxRuns x.ctx && !s.stepPending gr x)

/-- The next step of a core position, when it can start. -/
def State.nextStep (s : State) (gr pos : Nat) : Option ArrayStep :=
  match (s.array gr).queue.find? fun x => x.pos == pos && s.stepFree gr x with
  | some x => if 0 < x.off ∨ s.tilesBefore x.g x.id then some x else none
  | none => none

/-- What the arbiter grants next: the position, its step, and whether a new turn begins. -/
def State.grant (s : State) (gr : Nat) : Option (Nat × ArrayStep × Bool) :=
  let u := s.array gr
  if u.started.isSome then none
  else
    match if u.used < 512 then s.nextStep gr u.holder else none with
    | some x => some (u.holder, x, false)
    | none => (rangeFrom (u.holder + 1) 4).findSome? fun p => (s.nextStep gr (p % 4)).map fun x => (p % 4, x, true)

/-- A step started; one that works on a chain then asks the next array to the east for its grant (R347). -/
def State.stepStart (s : State) (gr : Nat) : State :=
  match s.grant gr with
  | none => s
  | some (p, x, turn) =>
    let s1 := s.modArray gr fun u =>
      { u with holder := p, used := if turn then 0 else u.used, started := some x, queue := u.queue.erase x }
    if x.off + 1 < x.chainLen then s1.modArray (gr + 1) fun u => { u with queue := u.queue ++ [{ x with off := x.off + 1 }] }
    else s1

/-- Array `a` holds its grant for the step. -/
def State.holdsStep (s : State) (x : ArrayStep) (a : Nat) : Bool :=
  match (s.array a).started with | some y => y.id == x.id | none => false

/-- Array cycles counted to the core position that holds the grant (R347, R425). -/
def State.countCycles (s : State) (gr pos ctx n : Nat) : State :=
  (s.modArray gr fun u => { u with used := u.used + n }).pmcCtx ctx (gr * 4 + pos) 0x2A n

/-- A step has ended in every array of its chain: its operation completes; `mlog.reissue` writes its code and goes on (R190, R238). -/
def State.stepOver (s : State) (gr : Nat) (x : ArrayStep) (code : Nat) : State :=
  let s1 := ((rangeFrom gr x.chainLen).foldl (fun (t : State) (a : Nat) => t.modArray a fun u => { u with started := none }) s).modGroup
    x.g fun g => g.doneMma x.id
  match x.kind with
  | .reissue d =>
    (s1.withFocus x.g fun t =>
      (t.modG fun g => { (g.setS d (BitVec.ofNat 32 code)) with inProgress := false }).retireBehind (t.g.pc + 4)).restop x.g
  | _ => s1

/-- A bound trap to come, after those already pending (R237). -/
def State.boundTrap (s : State) (x : ArrayStep) (bank code : Nat) : State :=
  s.modGroup x.g fun g => { g with bounds := g.bounds ++ [{ pc := x.pc, bank := bank, reason := code, rule := x.rule }] }

/-- A re-issue between two parts: its core position keeps the array while its slice lasts, and otherwise it waits at the head of
the queue (R233, R347). -/
def State.stepSlice (s : State) (gr : Nat) (x : ArrayStep) : State :=
  s.modArray gr fun u => if u.used < 512 then { u with started := some x } else { u with started := none, queue := x :: u.queue }

/-- A re-issue abandoned: its partner is freed, PENDING is set, and it waits at the head of the queue to run from step 1 (R235). -/
def State.stepAbandon (s : State) (gr : Nat) (x : ArrayStep) : State :=
  ((s.dropClaim gr x.bank).modArray gr fun u =>
    { u with started := none, queue := { x with work := none, rep := 0 } :: u.queue }).modBank gr x.bank fun b => { b with pending := true }

/-- The tests of R229 after an `mma` or `mmac`: the first bank over its threshold decides. A re-issue that nothing refuses is
to run; while the context is halted it is set aside at once (R235). -/
def State.stepTest (s : State) (gr : Nat) (x : ArrayStep) : State :=
  match (rangeFrom gr x.chainLen).find? fun a => (s.bank a x.bank).exceeded x.mode with
  | none => s.stepOver gr x 0
  | some a =>
    let code := s.refusal a x.bank x.mode
    if code ≠ 0 ∨ x.chainLen ≠ 1 then (s.stepOver gr x 0).boundTrap x x.bank code
    else
      let y := { x with wantReissue := true }
      if s.ctxRuns x.ctx then s.stepSlice gr y else s.stepAbandon gr y

/-- `bclr` performed in every array of its chain (R339). -/
def State.endBclr (s : State) (gr : Nat) (x : ArrayStep) : State :=
  ((rangeFrom gr x.chainLen).foldl
    (fun (t : State) (a : Nat) => (t.modBank a x.bank fun b => b.restart x.term).countCycles a x.pos x.ctx 8) s).stepOver gr x 0

/-- `awr` performed (R339). -/
def State.endAwr (s : State) (gr : Nat) (x : ArrayStep) (h : Handle) (n : Nat) (fmt : Word) (rb cb : Nat) : State :=
  match s.team? x.team with
  | none => s.stepOver gr x 0
  | some t =>
    let src := t.source n h
    ((s.modBank gr x.bank fun b =>
      ({ b.restart (boundAdd src.hb x.term) with
          baseTile := true, baseH := some (n, x.team, src, fmt), baseRect := (rb, cb) }.putTile h t.win fmt rb cb).saneBound).countCycles
        gr x.pos x.ctx (rowCycles h)).stepOver gr x 0

/-- One array of a product (R343, R345): `k0` columns of A lie before it; `carry` is what its western neighbour passes. -/
def State.macArray (s : State) (x : ArrayStep) (h src : Handle) (n : Nat) (fmt : Word) (rb cb : Nat) (neg : Bool) (sigma : Int)
    (chained : Bool) (win : SMap Byte) (a k0 : Nat) (carry : Option (List Val × Word)) : State × List Val × Word × Nat :=
  match (s.planes a x.pos).front with
  | none => (s, [], 0, 0)
  | some p =>
    let b := s.bank a x.bank
    let wide : Bool := h.tag == 8
    let f := if chained then (if wide then a80 else a40) else b.fmt
    let start := fun (i j : Nat) =>
      match carry with
      | some c => c.1.getD (i * p.n + j) (.nan none)
      | none => b.val (16 * rb + i) (16 * cb + j)
    let r := b.mac f start (fun i k => foldFactor neg sigma (h.lval win fmt false i (k0 + k))) p.val rb cb h.lrows p.n p.k
    let bin := match carry with | some c => c.2 | none => boundAdd b.bnd x.term
    let bnd := boundAdd (boundAdd bin (widthTerm p.k r.2.1 (f == a80))) (tOp p.k src p.src sigma)
    let c : Contrib :=
      { hA := n, aH := src, aFmt := fmt, hBnum := p.srcH, bTeam := p.srcTeam, bH := p.src, bFmt := p.fmt, rb := rb, cb := cb, kLo := k0
        k := p.k, m := h.lrows, n := p.n, neg := neg, sigma := sigma, term := if carry.isSome then 0 else x.term }
    let b1 := ({ r.1 with bnd := bnd }.saneBound).append c
    let b2 := { b1 with chained := b1.chained || chained, isSealed := b1.isSealed || p.srcTeam != x.team }
    let cyc := mmaCycles x.chainLen h.lrows (tagBytes h.tag) p.k (((mmaClass h.tag p.tag fmt p.fmt).getD .h16).intake)
    ((s.modBank a x.bank fun _ => b2).countCycles a x.pos x.ctx cyc, r.2.2, bnd, k0 + p.k)

/-- `mma` or `mmac` performed, from west to east (R343, R345). -/
def State.endMma (s : State) (gr : Nat) (x : ArrayStep) (h : Handle) (n : Nat) (fmt : Word) (rb cb : Nat) (neg : Bool) (sigma : Int)
    (chained : Bool) : State :=
  match s.team? x.team with
  | none => s.stepOver gr x 0
  | some t =>
    let src := t.source n h
    let r := (rangeFrom gr x.chainLen).foldl
      (fun (o : State × Nat × Option (List Val × Word)) (a : Nat) =>
        let q := o.1.macArray x h src n fmt rb cb neg sigma chained t.win a o.2.1 o.2.2
        (q.1, q.2.2.2, some (q.2.1, q.2.2.1))) (s, 0, none)
    r.1.stepTest gr x

/-- `ard` performed (R346). -/
def State.endArd (s : State) (gr : Nat) (x : ArrayStep) (h : Handle) (n : Nat) (fmt : Word) (rb cb : Nat) : State :=
  match s.team? x.team with
  | none => s.stepOver gr x 0
  | some t =>
    let b := s.bank gr x.bank
    let dst := tileFmt h.tag fmt
    let r := h.convertInto fmt (roundingOf x.mode) (s.phaseOf x.g) (convExact b.fmt dst) b.bnd (fun i j => b.val (16 * rb + i) (16 * cb + j))
      (fun _ _ r v => dst.encode r false v) t.win
    (((s.modTeam x.team fun t => t.finishTile n h r.1 h.ranges (boundAdd r.2.1 x.term) r.2.2).countCycles gr x.pos x.ctx
      (rowCycles h)).stepOver gr x 0).modGroup x.g fun g => g.advancePhase x.mode x.rule

/-- A started step ends once every array of its chain has granted it (R229, R347). One that waits for its re-issue ends with it. -/
def State.stepEnd (s : State) (gr : Nat) : State :=
  match (s.array gr).started with
  | none => s
  | some x =>
    if x.wantReissue || x.off != 0 || !((rangeFrom gr x.chainLen).all (s.holdsStep x)) then s
    else
      match x.kind with
      | .bclr => s.endBclr gr x
      | .awr h n fmt rb cb => s.endAwr gr x h n fmt rb cb
      | .mma h n fmt rb cb neg sigma chained => s.endMma gr x h n fmt rb cb neg sigma chained
      | .ard h n fmt rb cb => s.endArd gr x h n fmt rb cb
      | .reissue _ => s.stepOver gr x 0

/-! ### Re-issue in parts (R233) -/

/-- `mlog.reissue`, which neither tests the bound nor traps (R238). -/
def StepKind.isLog : StepKind → Bool
  | .reissue _ => true
  | _ => false

/-- A re-issue begins: the conditions of R232 refuse it, or the partner is claimed and the base reloaded (R233 steps 1 and 2). -/
def State.reissueBegin (s : State) (gr : Nat) (x : ArrayStep) : State :=
  let code := s.refusal gr x.bank x.mode
  let s0 := s.modBank gr x.bank fun b => { b with pending := false }
  if code ≠ 0 then
    let s1 := s0.stepOver gr x code
    if x.kind.isLog then s1 else s1.boundTrap x x.bank code
  else
    let b := s0.bank gr x.bank
    ((s0.modBank gr (partnerOf x.bank) fun p => { p with heldFor := some x.bank }).countCycles gr x.pos x.ctx
      (if b.baseTile then 128 else 64)).stepSlice gr { x with work := some (s0.reissueBase b), rep := 0 }

/-- The next logged contribution repeated on what the windows hold now, for 4 times its array cycles (R233 step 3, R236). -/
def State.reissueRepeat (s : State) (gr : Nat) (x : ArrayStep) (w : Bank) (c : Contrib) : State :=
  (s.countCycles gr x.pos x.ctx (4 * c.cycles)).stepSlice gr
    { x with work := some (s.repeatContrib (s.bankTeam (s.bank gr x.bank)) w c), rep := x.rep + 1 }

/-- The commit, and the repeated test under the MODE of the triggering instruction (R233 steps 4 to 6). -/
def State.reissueCommit (s : State) (gr : Nat) (x : ArrayStep) (w : Bank) : State :=
  let b := (s.bank gr x.bank).commit w
  let s1 := (((s.modBank gr x.bank fun _ => b).countCycles gr x.pos x.ctx 64).pmcCtx x.ctx (gr * 4 + x.pos) 0x2B 1).stepOver gr x 0
  if !x.kind.isLog && b.exceeded x.mode then s1.boundTrap x x.bank 8 else s1

/-- The next part of a re-issue: its beginning, one contribution, or its commit; a halted context's is abandoned (R233, R235). -/
def State.stepReissue (s : State) (gr bank : Nat) : State :=
  match (s.array gr).started with
  | none => s
  | some x =>
    if !(x.wantReissue && x.bank == bank) then s
    else if !s.ctxRuns x.ctx then s.stepAbandon gr x
    else
      match x.work with
      | none => s.reissueBegin gr x
      | some w =>
        match (s.bank gr bank).log[x.rep]? with
        | some c => s.reissueRepeat gr x w c
        | none => s.reissueCommit gr x w

end Sys2Proof.Machine
end

