-- ==== Sys2Proof/Machine/Stop.lean ====
section
/-! DEFINITION. Stopping and releasing groups: halts, freezes, and what engines, roots and arrays do at a stop (R201, R235,
R383, R384, R411, R420, R421). -/

namespace Sys2Proof.Machine

/-- After a stop, the group's trace begins again with a SYNC of reason 5 (R408, R411). -/
def State.traceResume (s : State) : State :=
  if s.g.trc.on && s.g.trc.syncDue then
    s.tracePrelude
  else s

/-- A group stops with a stop record (R383 step 3, R411), `own` the code it has raised itself. A group that has ended, stopped or
been frozen is left alone. -/
def State.stopGroup (s0 : State) (k cause code : Nat) (own : Option Raise := none) : State :=
  let s := s0.settleShoot k
  match s.group? k with
  | none => s
  | some g =>
    if g.st = .ended ∨ g.st = .stopped ∨ g.st = .frozen then s
    else
      let s1 := (s.withFocus k State.traceStop).modGroup k fun g =>
        { g with st := .stopped, stLeft := g.st, stopCause := cause, stepping := false }
      s1.addStop g.ctx (s.groupStop { g with stLeft := g.st } cause own code)

/-- A group is frozen, at once: a step is never inside an instruction (R421). -/
def State.freezeGroup (s0 : State) (k : Nat) : State :=
  let s := s0.settleShoot k
  match s.group? k with
  | none => s
  | some g =>
    if g.st = .ended ∨ g.st = .frozen then s
    else
      (s.withFocus k State.traceStop).modGroup k fun g =>
        { g with st := .frozen, stLeft := if g.st = .stopped then g.stLeft else g.st, stepping := false }

/-- The state a released group goes on from: READY where it was issuing. -/
def GState.released : GState → GState
  | .issuing => .ready
  | x => x

/-- A stopped group returns to the state it left (R383 step 8). -/
def State.unstop (s : State) (k : Nat) : State :=
  match s.group? k with
  | none => s
  | some g =>
    if g.st = .stopped then
      (s.modGroup k fun g => { g with st := g.stLeft.released }).withFocus k State.traceResume
    else s

/-- The CAUSE with which a released frozen group stays stopped: its context is halted or debug halted, or a save holds it (R383,
R392, R420); none where it goes on. -/
def Ctx.holdCause (c : Ctx) (g : Group) : Option Nat :=
  if c.debugHalt then some 3
  else if c.halt = .stopped then some 1
  else if c.isSaving ∧ c.cut.isNone then (if c.overdue then some 5 else if g.tr.tmask then none else some 2)
  else none

/-- A frozen group is released: it ends when a cancel has reached it, stays stopped while its context holds it, and otherwise returns
to the state it left, a save request deferred while its traps are masked; its next issue meets no breakpoint (R253, R392, R416,
R418). -/
def State.thawGroup (s : State) (k : Nat) : State :=
  match s.group? k with
  | none => s
  | some g =>
    if g.st ≠ .frozen then s
    else if g.cancelReq then (s.modGroup k fun g => { g with st := g.stLeft.released }).cancelGroup k
    else
      match s.ctx? g.ctx with
      | none => s
      | some c =>
        let late : Bool := c.isSaving && g.tr.tmask && !c.overdue
        match c.holdCause g with
        | some n =>
          ((s.modGroup k fun g =>
            { g with
              st := .stopped, bpSkip := true, stopCause := if c.isSaving && !late then (if n = 5 then 5 else 2) else n
              tr := { g.tr with preq := late } }).addStop g.ctx (s.groupStop g n none 0)).forwardStops g.ctx (·.seq == c.stopSeq)
        | none =>
          (s.modGroup k fun g => { g with st := g.stLeft.released, bpSkip := true, tr := { g.tr with preq := late } }).withFocus k
            State.traceResume

/-- AGENT of an engine's record (R384). -/
def EngReq.agent (e : EngReq) : Nat := e.cls + 1

/-- The address of the first byte a request has not started (R384): on its virtual side, a gather's on its source base. -/
def EngReq.nextVa (e : EngReq) : DWord :=
  if e.dstsp then
    if e.cls = 1 then e.src else e.src + BitVec.ofInt 64 (e.row * e.sstride + e.byte)
  else e.dst + BitVec.ofInt 64 (e.row * e.dstride + e.byte)

/-- The stop record of an engine request (R384). -/
def State.engStop (s : State) (e : EngReq) (cause : Nat) : StopRec :=
  { agent := BitVec.ofNat 3 e.agent, va := e.nextVa, pc := e.pc, cause := BitVec.ofNat 4 cause,
    gid := match s.group? e.g with | some g => g.gid | none => 0,
    state := if e.running then 2 else 1 }

/-- The stop record of a subscription (R384). -/
def State.subStop (s : State) (b : Sub) (cause : Nat) : StopRec :=
  { agent := 4, va := b.next, pc := b.pc, cause := BitVec.ofNat 4 cause,
    gid := match s.group? b.g with | some g => g.gid | none => 0, state := 2 }

/-- A re-issue of a context that is in progress: granted, or between two slices (R233). An `mlog.reissue` that the array has not
begun is none. -/
def ArrayStep.reissues (x : ArrayStep) (ctx : Nat) (granted : Bool) : Bool :=
  x.ctx == ctx && x.wantReissue && (granted || x.work.isSome || !x.kind.isLog)

/-- Every re-issue of a context in progress is abandoned: its partner is freed, PENDING is set, and it waits at the head of the
queue to run from step 1 (R235). -/
def State.abandonReissues (s : State) (ctx : Nat) : State :=
  s.arrays.foldl
    (fun (t : State) (p : Nat × ArrayUnit) =>
      match p.2.started.toList.find? (·.reissues ctx true) with
      | some x => t.stepAbandon p.1 x
      | none =>
        (p.2.queue.filter (·.reissues ctx false)).foldl
          (fun (t : State) (x : ArrayStep) => (t.modArray p.1 fun u => { u with queue := u.queue.erase x }).stepAbandon p.1 x) t) s

/-- The groups of a context in ascending `%gid`. -/
def State.groupsOf (s : State) (ctx : Nat) : List Group :=
  orderBy (s.groups.filter (·.ctx == ctx)) fun a b => a.gid.toNat ≤ b.gid.toNat

/-- An engine request has begun a unit that it has not posted (R201). -/
def State.engMid (s : State) (e : EngReq) : Bool := e.acc != 0 || s.hasTxns e.id

/-- A root streamer has begun a slot. -/
def State.subMid (s : State) (b : Sub) : Bool := s.hasTxns b.party

/-- The context of a subscription. -/
def State.subCtx (s : State) (b : Sub) : Nat := match s.team? b.team with | some t => t.ctx | none => 0

/-- A party of a context is inside a unit that it finishes before it stops: a chunk, slot, tile or array step that has started, or
a `tlbinv` that the sequencer has accepted (R43, R201, R351, R383). A re-issue is abandoned instead (R235). -/
def State.skids (s : State) (ctx : Nat) : Bool :=
  (s.engs.any fun e => e.ctx == ctx && s.engMid e) || (s.subs.any fun b => s.subCtx b == ctx && s.subMid b) ||
    (s.tops.any fun x => x.ctx == ctx && s.topMid x) ||
    (s.arrays.any fun p => match p.2.started with | some x => x.ctx == ctx && !x.wantReissue | none => false) ||
    s.groups.any fun g => g.ctx == ctx && s.groupSkids g.key

/-- Steps 2 to 6 of a halt (R383), once nothing skids: every group stops, re-issues are abandoned, and each party writes its stop
record. `which` leaves out groups that do not stop yet (R392). -/
def State.haltParties (s : State) (ctx cause : Nat) (which : Group → Bool) : State :=
  let s0 := s.abandonReissues ctx
  let s1 := ((s0.groupsOf ctx).filter which).foldl (fun (t : State) (g : Group) => t.stopGroup g.key cause 0) s0
  let s2 := (s1.engs.filter (·.ctx == ctx)).foldl (fun (t : State) (e : EngReq) => t.addStop ctx (t.engStop e cause)) s1
  (s2.subs.filter fun b => s2.subCtx b == ctx).foldl (fun (t : State) (b : Sub) => t.addStop ctx (t.subStop b cause)) s2

/-- The records of a halt forwarded: those from a SEQ on (R384). -/
def State.forwardFrom (s : State) (ctx : Nat) (from_ : Word) : State :=
  s.forwardStops ctx fun r => decide ((r.seq - from_).toNat < 2 ^ 31)

/-- A debug halt (R420): steps 1 to 6 with CAUSE 3, once nothing skids; groups at a breakpoint write their records first, with its
code (R417). The line stays raised. -/
def State.debugStop (s : State) (ctx : Nat) : State :=
  match s.ctx? ctx with
  | none => s
  | some c =>
    let s1 := c.breaks.foldl (fun (t : State) (f : PendFault) => t.stopGroup f.g 3 f.raise.code.num (some f.raise)) (s.abandonReissues ctx)
    let s2 := (s1.haltParties ctx 3 fun _ => true).modCtx ctx fun c => { c with debugHalt := true, cut := none, breaks := [] }
    s2.forwardFrom ctx c.stopSeq

/-- The halt line of a context lowered: its groups and engines go on, but for those a debug halt or a save holds; a fault
met meanwhile begins a new halt (R383 step 8, R385, R394, R420). -/
def State.lowerLine (s : State) (ctx : Nat) : State :=
  let s1 := s.modCtx ctx fun c => { c with halt := if c.faults.isEmpty then .lowered else .raised }
  match s1.ctx? ctx with
  | none => s1
  | some c =>
    let stays := fun (g : Group) => c.debugHalt || c.faults.any (·.g == g.key) || (c.isSaving && (g.stopCause == 2 || g.stopCause == 5))
    ((s1.groupsOf ctx).filter fun g => g.st == .stopped && !stays g).foldl (fun (t : State) (g : Group) => t.unstop g.key) s1

/-- BREAKPOINT while a debugger is attached (R417): the group stops before the instruction with CAUSE 3 and CODE 0x10, by a freeze
or by a debug halt of its context. A group under STEP, or of a context that is halted already, stops at once. -/
def State.debugBreak (s : State) (freeze : Bool) (info : BitVec 12) : State :=
  let k := s.g.key
  let ctx := s.g.ctx
  let r : Raise := { code := .breakpoint, info := info }
  let seq := s.cx.stopSeq
  let at0 := s.modG fun g => { g with lastCode := 0x10 }
  let ask := fun (t : State) => if s.cx.debugHalt then t else t.modCtx ctx fun c => { c with cut := some 3 }
  if freeze then ((at0.addStop ctx (s.groupStop { s.g with stLeft := s.g.st } 3 (some r) Code.breakpoint.num)).freezeGroup k).forwardFrom ctx seq
  else if s.g.stepping || s.cx.debugHalt then
    ask (((at0.stopGroup k 3 Code.breakpoint.num (some r)).modGroup k fun g => { g with stopCause := 3 }).forwardFrom ctx seq)
  else ask (at0.modCtx ctx fun c => { c with breaks := c.breaks ++ [{ g := k, raise := r, pc := s.g.pc }] })

end Sys2Proof.Machine
end

