-- ==== Sys2Proof/Machine/Memory.lean ====
section
/-! DEFINITION. Loads, stores, scratchpad accesses, fences and cache control (R147 to R158, R163 to R166). -/

namespace Sys2Proof.Machine

/-! ### Where the lanes of an instruction go -/

/-- Where an access is served: memory of this package, or the fabric, with its virtual address (R13). -/
inductive Place where
  | loc (pa : Nat) (e : TlbEntry)
  | rem (pkg off : Nat) (va : DWord)
  deriving DecidableEq, Repr

/-- One address of the group translated and checked in the order of R149. -/
def State.placeOne (s : State) (kind : AccKind) (align opnd : Nat) (va : DWord) (later : Bool := false) : Except Check Place :=
  if va.toNat % align ≠ 0 then .error (.raise (raiseOpnd .misaligned opnd va))
  else
    match s.translate s.cx { agent := 0, core := s.g.core, later := later } va kind with
    | .hit pa e => .ok (.loc pa e)
    | .remote p o => .ok (.rem p o va)
    | .raise r => .error (.raise r)
    | .hold leaf => .error (.wait .handover (.handover leaf))
    | .miss q => .error (.walk q)

/-- The lanes of an instruction as far as they pass in this package, ascending, and what the first that does not comes to (R149,
R51). -/
abbrev Lanes := List (Nat × Place) × Option Check

/-- The addresses of the lanes of an instruction placed in ascending order. -/
def State.placeAll (s : State) (kind : AccKind) (align opnd : Nat) : List (Nat × DWord) → Lanes
  | [] => ([], none)
  | (l, va) :: t =>
    match s.placeOne kind align opnd va true with
    | .error c => ([], some c)
    | .ok p =>
      let r := s.placeAll kind align opnd t
      ((l, p) :: r.1, r.2)

/-- A part that the fabric serves: its lane, package, offset and virtual address. -/
structure Far where
  lane : Nat
  pkg : Nat
  off : Nat
  va : DWord
  deriving DecidableEq, Repr

/-- The parts of a list that the fabric serves. -/
def remotes (l : List (Nat × Place)) : List Far :=
  l.filterMap fun p => match p.2 with | .rem k o va => some { lane := p.1, pkg := k, off := o, va := va } | .loc .. => none

/-- The answers to the group's probes, or to its accesses, in the order of its lanes. -/
def State.answers (s : State) (probe : Bool) : List FabTxn := s.fab.filter fun x => x.owner == s.g.key && (x.op == probeOp) == probe

/-- Transactions of the group sent, waited for, or answered (R13, R436); the first lane whose answer is a code raises it, with the
address of the lane (R49). -/
def State.farPhase (s : State) (probe write : Bool) (op size : Nat) (l : List Far) (data : Nat → List Byte) : Check :=
  let mine := s.answers probe
  if mine.isEmpty then
    .fabric ((l.zip (List.range l.length)).map fun p =>
      { id := s.fresh + p.2, owner := s.g.key, write := write, op := op, pkg := p.1.pkg, off := p.1.off, tag := s.cx.jobTag
        size := size, data := data p.1.lane, va := p.1.va })
  else if mine.any (·.resp.isNone) then .wait .translation .resource
  else
    match failedTxn mine with
    | some r => .raise r
    | none => .ok

/-- A code that ends a load or an atomic after it has issued (R141). -/
def Raise.afterIssue (r : Raise) : Bool := r.code == .fabricTimeout || r.code == .eccUncorrectable

/-- What the fabric answered to the lanes of an access that has issued, where it is such a code. -/
def State.farFail (s : State) (l : List (Nat × Place)) : Option Raise :=
  if (remotes l).isEmpty then none
  else
    match failedTxn (s.answers false) with
    | some r => if r.afterIssue then some r else none
    | none => none

/-- The lanes of an access: all pass their checks before any is performed, and the lowest lane that does not pass decides, wherever
it is served (R51, R149). `op` 0 is a plain access, 1 and up an atomic of that code. With `late` a code of R141 leaves the access
to issue. -/
def State.laneCheck (s : State) (ls : Lanes) (write : Bool) (op size : Nat) (data : Nat → List Byte) (late : Bool := false) : Check :=
  let rs := remotes ls.1
  let probe := s.farPhase true write probeOp size rs fun _ => []
  match ls.2 with
  | some (.raise r) => if rs.isEmpty then .raise r else firstCheck [probe, .raise r]
  | some c => c
  | none =>
    if rs.isEmpty then .ok
    else if decide (1 < ls.1.length) && (s.answers false).isEmpty && decide (probe ≠ .ok) then probe
    else if late && (s.farFail ls.1).isSome then .ok
    else s.farPhase false write op size rs data

/-- The bytes the fabric answered for a lane. -/
def State.remoteData (s : State) (l : List (Nat × Place)) (lane : Nat) : List Byte :=
  match ((remotes l).zip (s.answers false)).find? fun p => p.1.lane == lane with
  | some (_, x) => match x.resp with | some (_, _, bs) => bs | none => []
  | none => []

/-- The bytes a lane reads: those its grove sees (R83, R84). -/
def State.placeBytes (s : State) (l : List (Nat × Place)) (lane size : Nat) : List Byte :=
  match l.find? (·.1 == lane) with
  | some (_, .loc pa _) => s.bytesFor (groveOf s.g.core) pa size
  | some (_, .rem ..) => s.remoteData l lane
  | none => []

/-- Some lane reads an uncorrectable word (R58, R446). -/
def State.anyEcc (s : State) (l : List (Nat × Place)) (size : Nat) : Bool :=
  l.any fun p => match p.2 with | .loc pa _ => s.eccBad pa size | .rem .. => false

/-- What a load that issues ends with: nothing, or a code of R141. -/
def State.loadFail (s : State) (l : List (Nat × Place)) (size : Nat) : Option Raise :=
  if s.anyEcc l size then some { code := .eccUncorrectable } else s.farFail l

/-- The lines of this package's memory that an access touches. -/
def localLines (l : List (Nat × Place)) (size : Nat) : List LineUse :=
  linesOf (l.filterMap fun p => match p.2 with | .loc pa e => some (pa, size, e) | .rem .. => none)

/-- The group's own atomics that no home has performed yet come before its later memory instructions (R110, R156). -/
def State.atomCheck (s : State) : Check :=
  waitIf ((s.groves.any fun p => p.2.svcq.any (·.g == s.g.key))) .dependency

/-- A store of the context waits for its grant in the grove of the group. -/
def State.storesWait (s : State) : Bool := s.pend.any fun p => p.grove == groveOf s.g.core && p.ctx == s.g.ctx

/-- Earlier memory accesses performed at a scope (R156, R163): loads have their data; stores stand in the grove's slice at `.team`
and `.grove`, and are granted at the wider scopes. There the stores of the grove's other groups that this group may have seen are
waited for with its own (R103, R110; assumption log 81). -/
def State.orderCheck (s : State) (scope : BitVec 3) (ld st : Bool) : Check :=
  waitIf ((ld && s.g.count 0 != 0) || (st && decide (2 ≤ scope.toNat) && (s.g.count 1 != 0 || s.storesWait))) .acquire

/-- What a memory instruction without an active lane waits for: it raises nothing and makes no access (R140, R149). -/
def idleCheck (g : Group) (srcs dsts : List Opd) : Check := destCheck g (srcs.filter (!·.trap) ++ dsts)

/-- A group reads `n` bytes of its window that hold no uncorrectable error (R58). -/
def Team.soundCheck (t : Team) (off n : Nat) : Check :=
  raiseIf (t.eccBad off n) { code := .eccUncorrectable, va := BitVec.ofNat 64 off }

/-- An operand of `n` bytes at a window offset that is a multiple of `n` (R58, R177, R193). -/
def State.objCheckAt (s : State) (off : Word) (n opnd : Nat) : Check :=
  firstCheck [spadCheck s.tm.w off.toNat n n opnd, s.tm.soundCheck off.toNat n]

/-! ### Addresses (R147) -/

/-- A virtual address of a lane: `(pair(base, l) + sext(off6, 6) × size) mod 2^64`. -/
def Group.vaddr (g : Group) (base : BitVec 7) (off : BitVec 6) (size l : Nat) : DWord :=
  g.vpair base.toNat l + BitVec.ofInt 64 (off.toInt * size)

/-- A scratchpad offset of a lane, exact: `zext(reg(base, l)) + sext(off6, 6) × size`. -/
def Group.soff (g : Group) (base : BitVec 7) (off : BitVec 6) (size l : Nat) : Int :=
  ((g.vsrc base.toNat l).toNat : Int) + off.toInt * size

/-- The address of a scalar memory instruction. -/
def Group.saddr (g : Group) (base : BitVec 7) (off : BitVec 6) (size : Nat) : DWord :=
  g.spair base.toNat + BitVec.ofInt 64 (off.toInt * size)

/-! ### Loads and stores -/

/-- The tag a load writes (R155). -/
def Group.loadTag (g : Group) (size : Nat) : BitVec 5 :=
  if size < 4 then (if g.type < 2 then g.typeTag else 0)
  else if size = 8 then (if is64 g.type then g.typeTag else 0)
  else if is64 g.type then 0 else g.typeTag

/-- Registers a size fills (R153). -/
def sizeRegs (size : Nat) : Nat := if size < 8 then 1 else size / 4

/-- The value of a loaded item as the registers take it: sizes 1 and 2 widen by TYPE (R154). -/
def Group.widen (g : Group) (size : Nat) (bs : List Byte) : Nat :=
  let x := natOfBytes bs
  if size < 4 ∧ g.type = 0 then lowBits 32 (sextN x (8 * size)) else x

/-- Words of a delivery, register by register, 32 lanes each (R154). -/
def laneWords (n : Nat) (f : Nat → Nat) : List Word :=
  (List.range n).flatMap fun j => (List.range 32).map fun l => BitVec.ofNat 32 (f l / 2 ^ (32 * j))

/-- A vector load of virtual memory (R153 to R155). -/
def State.vload (s : State) (size : Nat) (d base : BitVec 7) (off : BitVec 6) (ebase : Bool) :
    Host.Outcome State Fault Refusal :=
  let g := s.g
  let lanes := lanesOf g.active
  let n := sizeRegs size
  let srcs := [vOpd base 4 ebase 2]
  let dsts := [vOpd d 3 false n]
  if lanes = [] then s.issue (idleCheck g srcs dsts) id
  else
    let ps := s.placeAll .read size 4 (lanes.map fun l => (l, g.vaddr base off size l))
    s.issue (firstCheck [operandCheck g srcs dsts, counterCheck g 0 1, s.atomCheck, s.laneCheck ps false 0 size (fun _ => []) true])
      fun s =>
        let words := laneWords n fun l => g.widen size (s.placeBytes ps.1 l size)
        (s.l1Access false (localLines ps.1 size)).produce
          { scalar := false, d := d.toNat, n := n, mask := g.active, data := words, tag := some (g.loadTag size), counted := true
            fail := s.loadFail ps.1 size }

/-- The bytes of a store put in the grove's slice, lane by lane, and performed as far as their words are granted; the instruction
is counted on ST while one of its lanes waits (R84, R104, R152). -/
def State.storeAll (s : State) (ps : List (Nat × Place)) (size : Nat) (data : Nat → List Byte) : State :=
  let (k, s1) := s.takeKey
  let s2 := ps.foldl
    (fun (t : State) (p : Nat × Place) => match p.2 with | .loc pa e => t.storeOne k e pa (data p.1) | .rem .. => t) s1
  let s3 := s2.l1Access true (localLines ps size)
  if s3.pend.any (·.insn == k) then s3.modG fun g => g.addOp 1 k else s3

/-- The data a lane stores: little-endian, the lowest byte from the lowest register (R154). -/
def Group.storeData (g : Group) (d : BitVec 7) (size l : Nat) : List Byte :=
  bytesOfNat size (packElems 32 (fun j => (g.vsrc (d.toNat + j) l).toNat) (sizeRegs size))

/-- A vector store (R153, R154), after a check of its own. -/
def State.vstore (s : State) (size : Nat) (d base : BitVec 7) (off : BitVec 6) (ebase : Bool) (own : Check) :
    Host.Outcome State Fault Refusal :=
  let g := s.g
  let lanes := lanesOf g.active
  let srcs := [vOpd base 4 ebase 2, vOpd d 3 false (sizeRegs size)]
  if lanes = [] then s.issue (idleCheck g srcs []) id
  else
    let ps := s.placeAll .write size 4 (lanes.map fun l => (l, g.vaddr base off size l))
    s.issue (firstCheck [operandCheck g srcs [], counterCheck g 1 1, s.atomCheck, own, s.laneCheck ps true 0 size (g.storeData d size)])
      fun s => s.storeAll ps.1 size (g.storeData d size)

/-- LD_B (R153, R154). -/
def execLdB (d base : BitVec 7) (off : BitVec 6) (ebase : Bool) (s : State) : Host.Outcome State Fault Refusal :=
  s.vload 1 d base off ebase
/-- LD_H -/
def execLdH (d base : BitVec 7) (off : BitVec 6) (ebase : Bool) (s : State) : Host.Outcome State Fault Refusal :=
  s.vload 2 d base off ebase
/-- LD_W -/
def execLdW (d base : BitVec 7) (off : BitVec 6) (ebase : Bool) (s : State) : Host.Outcome State Fault Refusal :=
  s.vload 4 d base off ebase
/-- LD_D -/
def execLdD (d base : BitVec 7) (off : BitVec 6) (ebase : Bool) (s : State) : Host.Outcome State Fault Refusal :=
  s.vload 8 d base off ebase
/-- LD_Q -/
def execLdQ (d base : BitVec 7) (off : BitVec 6) (ebase : Bool) (s : State) : Host.Outcome State Fault Refusal :=
  s.vload 16 d base off ebase
/-- ST_B -/
def execStB (d base : BitVec 7) (off : BitVec 6) (ebase : Bool) (s : State) : Host.Outcome State Fault Refusal :=
  s.vstore 1 d base off ebase .ok
/-- ST_H -/
def execStH (d base : BitVec 7) (off : BitVec 6) (ebase : Bool) (s : State) : Host.Outcome State Fault Refusal :=
  s.vstore 2 d base off ebase .ok
/-- ST_W -/
def execStW (d base : BitVec 7) (off : BitVec 6) (ebase : Bool) (s : State) : Host.Outcome State Fault Refusal :=
  s.vstore 4 d base off ebase .ok
/-- ST_D -/
def execStD (d base : BitVec 7) (off : BitVec 6) (ebase : Bool) (s : State) : Host.Outcome State Fault Refusal :=
  s.vstore 8 d base off ebase .ok
/-- ST_Q -/
def execStQ (d base : BitVec 7) (off : BitVec 6) (ebase : Bool) (s : State) : Host.Outcome State Fault Refusal :=
  s.vstore 16 d base off ebase .ok
/-- LD_ACQ_W: its data are read at its issue, so nothing later can pass it (R156). The scope changes only how long that
takes. -/
def execLdAcqW (d base : BitVec 7) (off : BitVec 6) (_scope : BitVec 3) (ebase : Bool) (s : State) :
    Host.Outcome State Fault Refusal := s.vload 4 d base off ebase
/-- LD_ACQ_D -/
def execLdAcqD (d base : BitVec 7) (off : BitVec 6) (_scope : BitVec 3) (ebase : Bool) (s : State) :
    Host.Outcome State Fault Refusal := s.vload 8 d base off ebase
/-- ST_REL_W: performed after every earlier memory access of the group at its scope (R156). -/
def execStRelW (d base : BitVec 7) (off : BitVec 6) (scope : BitVec 3) (ebase : Bool) (s : State) :
    Host.Outcome State Fault Refusal := s.vstore 4 d base off ebase (s.orderCheck scope true true)
/-- ST_REL_D -/
def execStRelD (d base : BitVec 7) (off : BitVec 6) (scope : BitVec 3) (ebase : Bool) (s : State) :
    Host.Outcome State Fault Refusal := s.vstore 8 d base off ebase (s.orderCheck scope true true)

/-- A scalar load (R157). -/
def State.sload (s : State) (n : Nat) (d base : BitVec 7) (off : BitVec 6) (ebase : Bool) : Host.Outcome State Fault Refusal :=
  let g := s.g
  let ps := s.placeAll .read (4 * n) 4 [(0, g.saddr base off (4 * n))]
  s.issue (firstCheck [operandCheck g [sOpd base 4 ebase 2] [sOpd d 3 false n], counterCheck g 0 1, s.atomCheck,
      s.laneCheck ps false 0 (4 * n) (fun _ => []) true]) fun s =>
    let x := natOfBytes (s.placeBytes ps.1 0 (4 * n))
    (s.l1Access false (localLines ps.1 (4 * n))).produce
      { scalar := true, d := d.toNat, n := n, mask := 0, tag := none, counted := true, fail := s.loadFail ps.1 (4 * n)
        data := (List.range n).map fun j => BitVec.ofNat 32 (x / 2 ^ (32 * j)) }

/-- A scalar store (R157). -/
def State.sstore (s : State) (n : Nat) (d base : BitVec 7) (off : BitVec 6) (ebase : Bool) : Host.Outcome State Fault Refusal :=
  let g := s.g
  let data := fun (_ : Nat) => bytesOfNat (4 * n) (packElems 32 (fun j => (g.sreg (d.toNat + j)).toNat) n)
  let ps := s.placeAll .write (4 * n) 4 [(0, g.saddr base off (4 * n))]
  s.issue (firstCheck [operandCheck g [sOpd base 4 ebase 2, sOpd d 3 false n] [], counterCheck g 1 1, s.atomCheck,
      s.laneCheck ps true 0 (4 * n) data]) fun s => s.storeAll ps.1 (4 * n) data

/-- SLD (R157). -/
def execSld (d base : BitVec 7) (off : BitVec 6) (ebase : Bool) (s : State) : Host.Outcome State Fault Refusal :=
  s.sload 1 d base off ebase
/-- SLD_D -/
def execSldD (d base : BitVec 7) (off : BitVec 6) (ebase : Bool) (s : State) : Host.Outcome State Fault Refusal :=
  s.sload 2 d base off ebase
/-- SST -/
def execSst (d base : BitVec 7) (off : BitVec 6) (ebase : Bool) (s : State) : Host.Outcome State Fault Refusal :=
  s.sstore 1 d base off ebase
/-- SST_D -/
def execSstD (d base : BitVec 7) (off : BitVec 6) (ebase : Bool) (s : State) : Host.Outcome State Fault Refusal :=
  s.sstore 2 d base off ebase

/-! ### Scratchpad (R77 to R79, R158) -/

/-- Offsets of the lanes checked in order: alignment, then the window (R148, R149). -/
def spadLanes (w : Nat) (size : Nat) : List (Nat × Int) → Check
  | [] => .ok
  | (_, o) :: t => firstCheck [spadCheck w o size size 4, spadLanes w size t]

/-- The lanes of each phase (R78). -/
def phaseLanes (size : Nat) : List (List Nat) :=
  if size = 16 then (List.range 4).map fun p => rangeFrom (8 * p) 8
  else if size = 8 then (List.range 2).map fun p => rangeFrom (16 * p) 16
  else [List.range 32]

/-- The most distinct bank words needed in one bank; 0 for an empty phase (R79). -/
def busiest (words : List Nat) : Nat :=
  let w := words.dedup
  (List.range 32).foldl (fun m b => max m (w.filter (· % 32 == b)).length) 0

/-- Conflict cycles of an access (R79). -/
def conflicts (size : Nat) (offs : List (Nat × Int)) : Nat :=
  ((phaseLanes size).map fun ls =>
    busiest ((offs.filter fun p => ls.contains p.1).flatMap fun p => rangeFrom (p.2.toNat / 4) ((size + 3) / 4)) - 1).sum

/-- A lane reads a window word with an uncorrectable error (R58): the load ends with it. -/
def State.spadFail (s : State) (size : Nat) (offs : List (Nat × Int)) : Option Raise :=
  if offs.any fun p => s.tm.eccBad p.2.toNat size then some { code := .eccUncorrectable } else none

/-- A scratchpad load (R158). -/
def State.ldsOp (s : State) (size : Nat) (d base : BitVec 7) (off : BitVec 6) (ebase : Bool) :
    Host.Outcome State Fault Refusal :=
  let g := s.g
  let lanes := lanesOf g.active
  let n := sizeRegs size
  let srcs := [vOpd base 4 ebase]
  let dsts := [vOpd d 3 false n]
  if lanes = [] then s.issue (idleCheck g srcs dsts) id
  else
    let offs := lanes.map fun l => (l, g.soff base off size l)
    s.issue (firstCheck [operandCheck g srcs dsts, counterCheck g 0 1, spadLanes s.tm.w size offs]) fun s =>
      let words := laneWords n fun l => winNat s.tm.win (g.soff base off size l).toNat size
      (s.pmcAdd g.core 0x20 (conflicts size offs)).produce
        { scalar := false, d := d.toNat, n := n, mask := g.active, data := words, tag := some (g.loadTag size), counted := true
          fail := s.spadFail size offs }

/-- A scratchpad store: the highest-numbered lane's bytes stand last; one write for the handles it meets (R79, R158). -/
def State.stsOp (s : State) (size : Nat) (d base : BitVec 7) (off : BitVec 6) (ebase : Bool) :
    Host.Outcome State Fault Refusal :=
  let g := s.g
  let lanes := lanesOf g.active
  let srcs := [vOpd base 4 ebase, vOpd d 3 false (sizeRegs size)]
  if lanes = [] then s.issue (idleCheck g srcs []) id
  else
    let offs := lanes.map fun l => (l, g.soff base off size l)
    s.issue (firstCheck [operandCheck g srcs [], counterCheck g 1 1, spadLanes s.tm.w size offs]) fun s =>
      (s.pmcAdd g.core 0x20 (conflicts size offs)).modTm fun t =>
        let t1 := offs.foldl (fun (t : Team) (p : Nat × Int) =>
          { t with win := winWrite t.win p.2.toNat (g.storeData d size p.1) }) t
        t1.touch (offs.map fun p => (p.2.toNat, size)) .other

/-- LDS_W (R158). -/
def execLdsW (d base : BitVec 7) (off : BitVec 6) (ebase : Bool) (s : State) : Host.Outcome State Fault Refusal :=
  s.ldsOp 4 d base off ebase
/-- LDS_D -/
def execLdsD (d base : BitVec 7) (off : BitVec 6) (ebase : Bool) (s : State) : Host.Outcome State Fault Refusal :=
  s.ldsOp 8 d base off ebase
/-- LDS_Q -/
def execLdsQ (d base : BitVec 7) (off : BitVec 6) (ebase : Bool) (s : State) : Host.Outcome State Fault Refusal :=
  s.ldsOp 16 d base off ebase
/-- STS_W -/
def execStsW (d base : BitVec 7) (off : BitVec 6) (ebase : Bool) (s : State) : Host.Outcome State Fault Refusal :=
  s.stsOp 4 d base off ebase
/-- STS_D -/
def execStsD (d base : BitVec 7) (off : BitVec 6) (ebase : Bool) (s : State) : Host.Outcome State Fault Refusal :=
  s.stsOp 8 d base off ebase
/-- STS_Q -/
def execStsQ (d base : BitVec 7) (off : BitVec 6) (ebase : Bool) (s : State) : Host.Outcome State Fault Refusal :=
  s.stsOp 16 d base off ebase

/-! ### Fences and cache control -/

/-- FENCE (R163): acq waits for earlier loads and atomics, rel and sc for every earlier memory access at the scope. -/
def execFence (kind : BitVec 2) (scope : BitVec 3) (s : State) : Host.Outcome State Fault Refusal :=
  s.issue (firstCheck [s.atomCheck, s.orderCheck scope true (kind != 0)]) id

/-- The pages of `[va, va + n)`: the first address in each. -/
def pagesOf (va : DWord) (n : Nat) : List DWord :=
  if n = 0 then []
  else (List.range ((va.toNat % 65536 + n - 1) / 65536 + 1)).map fun k =>
    if k = 0 then va else va - BitVec.ofNat 64 (va.toNat % 65536) + BitVec.ofNat 64 (65536 * k)

/-- An address of cache control translated, the walk of a miss made at once (R165). -/
def State.walkNow (s : State) (va : DWord) : State × XRes :=
  let x := s.translate s.cx { agent := 0, core := s.g.core, later := true } va .read
  match x with
  | .miss q =>
    let t := s.walk q
    (t, t.translate t.cx { agent := 0, core := t.g.core, later := true } va .read)
  | _ => (s, x)

/-- A page of a cache-control range: its frame when it has a leaf that may be used, none where it is skipped; a malformed
entry raises (R165). A page that another package serves, or that lies outside the region of the start, is skipped too
(assumption log 84). -/
def XRes.cachePage : XRes → Except Check (Option (Nat × TlbEntry))
  | .hit pa e => .ok (some (pa, e))
  | .miss q => .error (.walk q)
  | .remote .. => .ok none
  | .hold _ => .ok none
  | .raise r =>
    if r.code = .pagePermission ∧ (r.xdet.extractLsb' 8 4).toNat = rsnMalformed then .error (.raise r) else .ok none

/-- Every page of a range, in order, with the walks made. -/
def State.cachePages (s : State) : List DWord → Except Check (State × List (Option (Nat × TlbEntry)))
  | [] => .ok (s, [])
  | va :: t =>
    let w := s.walkNow va
    match w.2.cachePage with
    | .error c => .error c
    | .ok p =>
      match w.1.cachePages t with
      | .error c => .error c
      | .ok r => .ok (r.1, p :: r.2)

/-- A range of cache control: a non-canonical start raises before any page is looked at (R165). -/
def State.cacheRange (s : State) (va : DWord) (n : Nat) : Except Check (State × List (Option (Nat × TlbEntry))) :=
  match s.translate s.cx { agent := 0, core := s.g.core, later := true } va .read with
  | .raise r =>
    if r.code = .pagePermission ∧ (r.xdet.extractLsb' 8 4).toNat = rsnNoncanon then .error (.raise r) else s.cachePages (pagesOf va n)
  | _ => s.cachePages (pagesOf va n)

/-- The physical lines of `[va, va + n)` whose pages are mapped, with their translations. -/
def rangeLines (va : DWord) (n : Nat) (pages : List (DWord × Option (Nat × TlbEntry))) : List (Nat × TlbEntry) :=
  pages.flatMap fun p =>
    match p.2 with
    | some (pa, e) =>
      let left := n - (p.1 - va).toNat
      let len := min left (65536 - p.1.toNat % 65536)
      (rangeFrom (lineOf pa) ((pa % 128 + len - 1) / 128 + 1)).map fun k => (k, e)
    | none => []

/-- The lines that caches hold: HOME 0b11 pages are unaffected (R165). -/
def cachedLines (l : List (Nat × TlbEntry)) : List (Nat × TlbEntry) := l.filter (·.2.home != 3)

/-- Scopes that reach the L2 (R164). -/
def scopeL2 (scope : BitVec 3) : Bool := decide (2 ≤ scope.toNat)

/-- One line asked for by a prefetch: into the L2 alone, or by GETS into the grove's L1 too (R29, R164). -/
def State.prefetchLine (s : State) (l2only : Bool) (line : Nat) (e : TlbEntry) : State :=
  let u := lineUse line e
  let gr := groveOf s.g.core
  let s1 := if u.home = 1 then (s.pinPage s.g.ctx gr (line / 512) (u.vline / 512)).2 else s
  if l2only then (s1.l2Alloc s.g.ctx line u.vline u.cls (s1.l2Pins u.home line)).2
  else
    let miss := ~~~((s1.grove gr).validMask line)
    if miss = 0 then s1.l1Touch gr line
    else
      s1.sendCoh { id := 0, grove := gr, line := line, first := (spanOf miss).1, n := (spanOf miss).2, write := false, cls := u.cls
                   pinned := s1.l2Pins u.home line, ctx := s.g.ctx, vline := u.vline, g := 0 }

/-- The pages of a prefetch up to the first that cannot be translated (R165). -/
def State.prefetchPages (s : State) : List DWord → State × List (DWord × Option (Nat × TlbEntry))
  | [] => (s, [])
  | va :: t =>
    let w := s.walkNow va
    match w.2 with
    | .hit pa e =>
      let r := w.1.prefetchPages t
      (r.1, (va, some (pa, e)) :: r.2)
    | _ => (s, [])

/-- PREFETCH: asks for the lines of the range it can translate, into the L1 and L2 or the L2 only; it raises nothing (R164,
R165). -/
def execPrefetch (d base : BitVec 7) (off : BitVec 6) (scope : BitVec 3) (ebase : Bool) (s : State) :
    Host.Outcome State Fault Refusal :=
  let g := s.g
  let va := g.saddr base off 128
  let n := min (g.sreg d.toNat).toNat (2 ^ 20)
  s.issue (operandCheck g [sOpd base 4 ebase 2, sOpd d 3] []) fun s =>
    let p := s.prefetchPages (pagesOf va n)
    (cachedLines (rangeLines va n p.2)).foldl (fun (t : State) (x : Nat × TlbEntry) => t.prefetchLine (scopeL2 scope) x.1 x.2) p.1

/-- Stores of the grove that wait for a grant in some lines come before cache control over them. -/
def State.linesWait (s : State) (l : List (Nat × TlbEntry)) : Check :=
  waitIf (s.pend.any fun p => p.grove == groveOf s.g.core && l.any (·.1 == lineOf p.pa)) .dependency

/-- Cache control over a range: every page is translated first, then the lines are acted on (R164, R165). -/
def State.cacheOp (s : State) (d base : BitVec 7) (off : BitVec 6) (ebase : Bool) (f : State → Nat → State) :
    Host.Outcome State Fault Refusal :=
  let g := s.g
  let va := g.saddr base off 128
  let n := (g.sreg d.toNat).toNat
  let opds := operandCheck g [sOpd base 4 ebase 2, sOpd d 3] []
  match firstCheck [opds, counterCheck g 1 1, s.atomCheck], s.cacheRange va n with
  | .ok, .ok r =>
    let l := cachedLines (rangeLines va n ((pagesOf va n).zip r.2))
    s.issue (s.linesWait l) fun _ => (l.map (·.1)).foldl f r.1
  | .ok, .error c => s.issue c id
  | c, _ => s.issue c id

/-- Dirty words of a line that a grove holds granted go to the homing slice; memory already holds every byte (R92, R164). -/
def State.flushL1 (s : State) (gr line : Nat) : State :=
  let back := (s.grove gr).wDirty line
  (s.modGrove gr fun g => g.modWords line back fun x => { x with dirty := 0 }).l2Merge line back

/-- Dirty words of a line go from the L2 to memory (R164). -/
def State.flushL2 (s : State) (line : Nat) : State :=
  s.modL2Set line fun l => l.map fun x => if x.line == line then { x with dirty := 0 } else x

/-- CFLUSH: dirty words go from the grove's L1 to the homing slice, at the wider scopes from there to memory (R164). -/
def execCflush (d base : BitVec 7) (off : BitVec 6) (scope : BitVec 3) (ebase : Bool) (s : State) :
    Host.Outcome State Fault Refusal :=
  s.cacheOp d base off ebase fun t line =>
    let t1 := t.flushL1 (groveOf t.g.core) line
    if scopeL2 scope then t1.flushL2 line else t1

/-- CINV: as CFLUSH, then the grove's L1 lines are invalidated, and the L2 lines at the wider scopes; pinned lines stay
(R164, R165). -/
def execCinv (d base : BitVec 7) (off : BitVec 6) (scope : BitVec 3) (ebase : Bool) (s : State) :
    Host.Outcome State Fault Refusal :=
  s.cacheOp d base off ebase fun t line =>
    let gr := groveOf t.g.core
    let t1 := if (t.grove gr).pinnedLine line then t.flushL1 gr line else t.evictL1 gr line
    if scopeL2 scope then
      if (t1.l2Set line).any fun x => x.line == line && !x.pinned then
        (t1.invAll t1.g.ctx line).modL2Set line fun l => l.filter (·.line != line)
      else t1.flushL2 line
    else t1

/-- The cores a scope names for `icinv` (R166). -/
def scopeCores (core : Nat) (scope : BitVec 3) : List Nat :=
  match scope.toNat with
  | 0 => [core]
  | 1 => rangeFrom (core / 4 * 4) 4
  | 2 => rangeFrom (core / 128 * 128) 128
  | _ => List.range 512

/-- A group of a context is resident on a core. -/
def State.resident (s : State) (ctx core : Nat) : Bool :=
  s.groups.any fun g => g.ctx == ctx && g.core == core && g.st != .ended

/-- Instruction-cache lines of a context dropped at some cores, with the fills in flight for them (R166). -/
def State.dropILines (s : State) (ctx : Nat) (cores lines : List Nat) : State :=
  let s1 := (cores.filter (s.resident ctx)).foldl
    (fun (t : State) (c : Nat) => t.modCore c fun x => { x with icache := x.icache.filter fun i => !lines.contains i.line }) s
  { s1 with fills := s1.fills.filter fun f => !(cores.contains f.core && lines.contains f.line) }

/-- ICINV: a release at `.dev`, then the range is translated and dropped from the chosen cores (R166). -/
def execIcinv (addr b : BitVec 7) (scope : BitVec 3) (s : State) : Host.Outcome State Fault Refusal :=
  let g := s.g
  let va := g.spair addr.toNat
  let n := (g.sreg b.toNat).toNat
  let opds := operandCheck g [sOpd addr 4 false 2, sOpd b 2] []
  match firstCheck [opds, s.atomCheck, s.orderCheck 3 true true], s.cacheRange va n with
  | .ok, .ok r =>
    s.issue .ok fun _ => r.1.dropILines s.g.ctx (scopeCores s.g.core scope) ((rangeLines va n ((pagesOf va n).zip r.2)).map (·.1))
  | .ok, .error c => s.issue c id
  | c, _ => s.issue c id

end Sys2Proof.Machine
end

