-- ==== Sys2Proof/Machine/Atomics.lean ====
section
/-! DEFINITION. Atomics, reductions and scratchpad atomics, with the steps of a home grove (R159 to R162). -/

namespace Sys2Proof.Machine

/-- The operand x of an atomic in a lane, or the compare value of `cas`. -/
def Group.atomX (g : Group) (b : BitVec 7) (l : Nat) : Nat := g.opv b l

/-- The new value of `cas` in a lane: b + 1, or the pair b+2:b+3 (R159). -/
def Group.atomY (g : Group) (b : BitVec 7) (l : Nat) : Nat :=
  if is64 g.type then (g.vpair (b.toNat + 2) l).toNat else (g.vsrc (b.toNat + 1) l).toNat

/-- The data operand of an atomic: a register or pair, for `cas` a pair or quad (R159). -/
def Group.atomOpd (g : Group) (op : Nat) (b : BitVec 7) : Opd :=
  vOpd b 2 false ((if is64 g.type then 2 else 1) * (if op = 7 then 2 else 1))

/-- The home groves of some places have room for their requests (R160). -/
def State.queueCheck (s : State) (ps : List (Nat × Place)) : Check :=
  let homes := ps.filterMap fun p => match p.2 with | .loc pa _ => some (homeGrove pa) | .rem .. => none
  waitIf (homes.dedup.any fun h => decide (512 < (s.grove h).svcq.length + (homes.filter (· == h)).length)) .atomicQueue

/-- The requests of the lanes sent to their home groves (R160). -/
def State.sendAtoms (s : State) (id op : Nat) (scope : BitVec 3) (b : BitVec 7) (ret : Bool) (ps : List (Nat × Place)) : State :=
  ps.foldl
    (fun (t : State) (p : Nat × Place) =>
      match p.2 with
      | .loc pa e =>
        let r : SvcReq :=
          { id := id, g := s.g.key, lane := p.1, op := op, ty := s.g.type, scope := scope, pa := pa, ctx := e.ctx,
            vline := (e.vpage * e.size + pa % e.size) / 128, cls := e.cls, home := e.home,
            x := BitVec.ofNat 64 (s.g.atomX b p.1), y := BitVec.ofNat 64 (s.g.atomY b p.1), ret := ret }
        t.modGrove (homeGrove pa) fun g => { g with svcq := g.svcq ++ [r] }
      | .rem .. => t) s

/-- An atomic or a reduction on virtual memory (R159, R160, R162). The transaction of a lane that another package serves
carries the operation and its TYPE, and both operands; a code of R141 that it answers ends the atomic after it has issued. -/
def State.atomOp (s : State) (op : Nat) (dst : Option (BitVec 7)) (addr b : BitVec 7) (scope : BitVec 3) :
    Host.Outcome State Fault Refusal :=
  let g := s.g
  let lanes := lanesOf g.active
  let wide := is64 g.type
  let size := if wide then 8 else 4
  let n := if wide then 2 else 1
  let bO := g.atomOpd op b
  let srcs := [vOpd addr 4 false 2, bO]
  let dO := match dst with | some d => [vOpd d 3 false n] | none => []
  if lanes = [] then s.issue (idleCheck g srcs dO) id
  else
    let cls := if dst.isSome then 0 else 1
    let ps := s.placeAll .write size 4 (lanes.map fun l => (l, g.vpair addr.toNat l))
    let data := fun l => bytesOfNat 8 (g.atomX b l) ++ bytesOfNat 8 (g.atomY b l)
    s.issue (firstCheck [vecCheck g (typeCheck (atomTypes op g.type)) srcs dO (acceptsTag g.dfmt g.type) [bO], counterCheck g cls 1,
        s.queueCheck ps.1, s.laneCheck ps true (1 + 16 * op + g.type) size data true]) fun s =>
      match s.farFail ps.1 with
      | some r =>
        s.produce
          { scalar := false, d := (dst.getD 0).toNat, n := if dst.isSome then n else 0, mask := g.active, data := [], tag := none
            counted := dst.isSome, fail := some r }
      | none =>
        let (k, s1) := s.takeKey
        let s2 := s1.sendAtoms k op scope b dst.isSome ps.1
        match dst with
        | some d =>
          let far := (remotes ps.1).map fun p => (p.lane, BitVec.ofNat 64 (natOfBytes (s.remoteData ps.1 p.lane)))
          s2.modG fun g =>
            { ((g.setEmptyN false d.toNat true n).addOp 0 k) with
              atoms := g.atoms ++ [{ id := k, d := d.toNat, wide := wide, left := g.active, tag := g.typeTag, replies := far }] }
        | none =>
          if ps.1.any fun p => match p.2 with | .loc .. => true | .rem .. => false then s2.modG fun g => g.addOp 1 k else s2

/-- ATOM_ADD (R159) -/
def execAtomAdd (d addr b : BitVec 7) (scope : BitVec 3) (s : State) : Host.Outcome State Fault Refusal :=
  s.atomOp 0 (some d) addr b scope
/-- ATOM_MIN -/
def execAtomMin (d addr b : BitVec 7) (scope : BitVec 3) (s : State) : Host.Outcome State Fault Refusal :=
  s.atomOp 1 (some d) addr b scope
/-- ATOM_MAX -/
def execAtomMax (d addr b : BitVec 7) (scope : BitVec 3) (s : State) : Host.Outcome State Fault Refusal :=
  s.atomOp 2 (some d) addr b scope
/-- ATOM_AND -/
def execAtomAnd (d addr b : BitVec 7) (scope : BitVec 3) (s : State) : Host.Outcome State Fault Refusal :=
  s.atomOp 3 (some d) addr b scope
/-- ATOM_OR -/
def execAtomOr (d addr b : BitVec 7) (scope : BitVec 3) (s : State) : Host.Outcome State Fault Refusal :=
  s.atomOp 4 (some d) addr b scope
/-- ATOM_XOR -/
def execAtomXor (d addr b : BitVec 7) (scope : BitVec 3) (s : State) : Host.Outcome State Fault Refusal :=
  s.atomOp 5 (some d) addr b scope
/-- ATOM_XCHG -/
def execAtomXchg (d addr b : BitVec 7) (scope : BitVec 3) (s : State) : Host.Outcome State Fault Refusal :=
  s.atomOp 6 (some d) addr b scope
/-- ATOM_CAS -/
def execAtomCas (d addr b : BitVec 7) (scope : BitVec 3) (s : State) : Host.Outcome State Fault Refusal :=
  s.atomOp 7 (some d) addr b scope
/-- RED: d names the operation (R162). -/
def execRed (d addr b : BitVec 7) (scope : BitVec 3) (s : State) : Host.Outcome State Fault Refusal :=
  if 5 < d.toNat then s.issue (.raise (illegal 0)) id else s.atomOp d.toNat none addr b scope

/-! ### Scratchpad atomics (R161) -/

/-- The lanes performed in ascending order on the window: the old values, the window and the ranges written. -/
def spadAtoms (g : Group) (op : Nat) (b : BitVec 7) : List (Nat × Int) → SMap Byte → SMap Word × SMap Byte × List (Nat × Nat)
  | [], w => ([], w, [])
  | (l, o) :: t, w =>
    let off := o.toNat
    let old := winNat w off 4
    let (w1, touched) := match rmw op g.type old (g.atomX b l) (g.atomY b l) with
      | some v => (winWrite w off (bytesOfNat 4 v), [(off, 4)])
      | none => (w, [])
    let r := spadAtoms g op b t w1
    (SMap.set 0 r.1 l (BitVec.ofNat 32 old), r.2.1, touched ++ r.2.2)

/-- An atomic on window words (R161). -/
def State.atomsOp (s : State) (op : Nat) (d addr b : BitVec 7) : Host.Outcome State Fault Refusal :=
  let g := s.g
  let lanes := lanesOf g.active
  let bO := g.atomOpd op b
  if lanes = [] then s.issue (idleCheck g [vOpd addr 4, bO] [vOpd d 3]) id
  else
    let offs := lanes.map fun l => (l, g.soff addr 0 4 l)
    s.issue (firstCheck [vecCheck g (typeCheck (g.type == 0 || g.type == 1 || (op == 0 && g.type == 8))) [vOpd addr 4, bO]
        [vOpd d 3] (acceptsTag g.dfmt g.type) [bO], counterCheck g 0 1, spadLanes s.tm.w 4 offs]) fun s =>
      let r := spadAtoms g op b offs s.tm.win
      ((s.pmcAdd g.core 0x20 (conflicts 4 offs)).modTm fun t => { t with win := r.2.1 }.touch r.2.2 .other).produce
        { scalar := false, d := d.toNat, n := 1, mask := g.active, data := (List.range 32).map (SMap.get 0 r.1)
          tag := some g.typeTag, counted := true, fail := s.spadFail 4 offs }

/-- ATOMS_ADD (R161) -/
def execAtomsAdd (d addr b : BitVec 7) (s : State) : Host.Outcome State Fault Refusal := s.atomsOp 0 d addr b
/-- ATOMS_MIN -/
def execAtomsMin (d addr b : BitVec 7) (s : State) : Host.Outcome State Fault Refusal := s.atomsOp 1 d addr b
/-- ATOMS_MAX -/
def execAtomsMax (d addr b : BitVec 7) (s : State) : Host.Outcome State Fault Refusal := s.atomsOp 2 d addr b
/-- ATOMS_OR -/
def execAtomsOr (d addr b : BitVec 7) (s : State) : Host.Outcome State Fault Refusal := s.atomsOp 4 d addr b
/-- ATOMS_XCHG -/
def execAtomsXchg (d addr b : BitVec 7) (s : State) : Host.Outcome State Fault Refusal := s.atomsOp 6 d addr b
/-- ATOMS_CAS -/
def execAtomsCas (d addr b : BitVec 7) (s : State) : Host.Outcome State Fault Refusal := s.atomsOp 7 d addr b

/-! ### Steps -/

/-- ATOMIC_REQUEST: the home grove performs the lane request at the head of its queue (R160). -/
def execAtomicRequest (grove : Nat) (s : State) : Host.Outcome State Fault Refusal := .next (s.performHead grove)

/-- A reply written to its lane; the register becomes full when every lane has replied (R139, R160). -/
def Group.takeReply (g : Group) (a : AtomWait) (l : Nat) (x : DWord) (rest : List (Nat × DWord)) : Group :=
  let g1 := g.setLane a.d l (x.extractLsb' 0 32)
  let g2 := if a.wide then g1.setLane (a.d + 1) l (x.extractLsb' 32 32) else g1
  let left := setBit a.left l false
  if left = 0 then
    let n := if a.wide then 2 else 1
    let g3 := ((g2.setTag a.d a.tag).setEmptyN false a.d false n).doneOp 0 a.id
    { (if a.wide then g3.setTag (a.d + 1) a.tag else g3) with atoms := g.atoms.filter (·.id != a.id) }
  else
    { g2 with atoms := g.atoms.map fun b => if b.id == a.id then { b with left := left, replies := rest } else b }

/-- ATOMIC_REPLY: the oldest reply of a group is written to its return slot (R160). -/
def execAtomicReply (g : Nat) (s : State) : Host.Outcome State Fault Refusal :=
  .next (s.modGroup g fun g =>
    match g.atoms.find? fun a => !a.replies.isEmpty with
    | some a => (match a.replies with | (l, x) :: rest => g.takeReply a l x rest | [] => g)
    | none => g)

end Sys2Proof.Machine
end

