-- ==== Sys2Proof/Machine/Barrier.lean ====
section
/-! DEFINITION. Barrier instructions, the grid barrier, `waitc` and monitors (R167, R168, R174 to R179, R191, R389). -/

namespace Sys2Proof.Machine

/-- The checks of a barrier operand: aligned to 16 and inside the window (R177). -/
def State.objCheck (s : State) (off : Word) (opnd : Nat) : Check := s.objCheckAt off 16 opnd

/-- BARRIER_OVERFLOW of a group instruction (R176). -/
def overflowAt (off : Word) : Raise := { code := .barrierOverflow, va := off.zeroExtend 64 }

/-- The object at an offset of the group's window written. -/
def State.putBar (s : State) (off : Word) (b : Bar) : State := s.modTm fun t => t.setBar off.toNat b

/-- BINIT (R177). -/
def execBinit (d a : BitVec 7) (ea ed : Bool) (s : State) : Host.Outcome State Fault Refusal :=
  let off := s.g.sreg d.toNat
  s.issue (firstCheck [operandCheck s.g [sOpd a 1 ea 2, sOpd d 3 ed] [], s.atomCheck, s.objCheck off 3]) fun s =>
    let o := s.tm.bar off.toNat
    let arr : BitVec 16 := (s.g.sreg a.toNat).extractLsb' 0 16
    let n := s.g.sreg (a.toNat + 1)
    if o.arr = 0 ∧ o.bytes = 0 then
      (s.putBar off { o with exparr := arr, expbytes := n }).modG fun g => g.setScc true
    else s.modG fun g => g.setScc (o.exparr == arr && o.expbytes == n)

/-- A `barr` noted in the participation set (R389). -/
def Group.joined (g : Group) (off : Nat) (phase : Word) : Group :=
  if g.part.any (·.1 == off) then { g with part := g.part.map fun p => if p.1 == off then (off, phase) else p }
  else if g.part.length < 16 then { g with part := g.part ++ [(off, phase)] }
  else { g with partOvf := true }

/-- BARR (R177, R389). -/
def execBarr (d a : BitVec 7) (ea : Bool) (s : State) : Host.Outcome State Fault Refusal :=
  let off := s.g.sreg a.toNat
  let o := s.tm.bar off.toNat
  let own := firstCheck [operandCheck s.g [sOpd a 1 ea] [sOpd d 3], s.atomCheck, s.objCheck off 1]
  match o.arrive 1 0 with
  | none => s.issue (firstCheck [own, .raise (overflowAt off)]) id
  | some o' =>
    s.issue own fun s => (s.putBar off o').modG fun g => (g.setS d.toNat o.phase).joined off.toNat o.phase

/-- BARR_DROP (R177, R389). -/
def execBarrDrop (d a : BitVec 7) (ea : Bool) (s : State) : Host.Outcome State Fault Refusal :=
  let off := s.g.sreg a.toNat
  let o := s.tm.bar off.toNat
  s.issue (firstCheck [operandCheck s.g [sOpd a 1 ea] [sOpd d 3], s.atomCheck, s.objCheck off 1,
      raiseIf (o.arr == o.exparr) (overflowAt off)]) fun s =>
    (s.putBar off ({ o with exparr := o.exparr - 1 } : Bar).check).modG fun g =>
      { (g.setS d.toNat o.phase) with part := g.part.filter (·.1 != off.toNat) }

/-- BEXP (R177). -/
def execBexp (d a : BitVec 7) (ea ed : Bool) (s : State) : Host.Outcome State Fault Refusal :=
  let off := s.g.sreg d.toNat
  let o := s.tm.bar off.toNat
  let n := s.g.sreg a.toNat
  s.issue (firstCheck [operandCheck s.g [sOpd a 1 ea, sOpd d 3 ed] [], s.atomCheck, s.objCheck off 3,
      raiseIf (decide (n.toNat < o.bytes.toNat)) (overflowAt off)]) fun s =>
    s.putBar off ({ o with expbytes := n } : Bar).check

/-- BEXP_ADD (R177). -/
def execBexpAdd (d a : BitVec 7) (ea ed : Bool) (s : State) : Host.Outcome State Fault Refusal :=
  let off := s.g.sreg d.toNat
  let o := s.tm.bar off.toNat
  let n := s.g.sreg a.toNat
  s.issue (firstCheck [operandCheck s.g [sOpd a 1 ea, sOpd d 3 ed] [], s.atomCheck, s.objCheck off 3,
      raiseIf (decide (2 ^ 32 ≤ o.expbytes.toNat + n.toNat)) (overflowAt off)]) fun s =>
    s.putBar off { o with expbytes := o.expbytes + n }

/-- BWAIT: blocked with its wait-for entry until the phase is complete (R177, R178, R200). -/
def execBwait (p kreg : BitVec 7) (s : State) : Host.Outcome State Fault Refusal :=
  let off := s.g.sreg p.toNat
  let k := s.g.sreg kreg.toNat
  s.issue (firstCheck [operandCheck s.g [sOpd p 1, sOpd kreg 2] [], s.atomCheck, s.objCheck off 1,
      waitIf (!(s.tm.bar off.toNat).complete k) .barrier (.barrier off.toNat k)]) id

/-- BTEST (R177). -/
def execBtest (d a : BitVec 7) (ea : Bool) (s : State) : Host.Outcome State Fault Refusal :=
  let off := s.g.sreg a.toNat
  s.issue (firstCheck [operandCheck s.g [sOpd a 1 ea 2] [sOpd d 3], s.atomCheck, s.objCheck off 1]) fun s =>
    let o := s.tm.bar off.toNat
    s.modG fun g => (g.setS d.toNat o.phase).setScc (o.complete (g.sreg (a.toNat + 1)))

/-! ### Grid barrier (R179) -/

/-- Every group of the unit of the focused team has executed its `n`-th `gbar` or exited, and no store of a group that has ended
still waits for its grant (R120). -/
def State.gbarDone (s : State) (n : Nat) : Bool :=
  !(s.pend.any fun p => p.ctx == s.g.ctx && match s.group? p.g with | some h => h.st == .ended | none => true) &&
  match s.unitOf s.tm with
  | none => true
  | some u =>
    ((List.range u.def_.teams).all fun j => !s.unplaced u j) &&
      s.groups.all fun h => h.ctx != s.g.ctx || h.st == .ended || decide (n ≤ h.gbarUse) ||
        (match s.team? h.team with | some t => t.unit != u.key | none => true)

/-- GBAR (R179): the group's earlier accesses are performed at `.dev` before it counts as arrived (R103, R120). -/
def execGbar (s : State) : Host.Outcome State Fault Refusal :=
  if !s.g.coop then s.issue (.raise { code := .gridBarrier }) id
  else
    match firstCheck [s.atomCheck, waitIf (!s.g.gbarIn && s.orderCheck 3 true true != .ok) .gbar] with
    | .ok =>
      let s1 := if s.g.gbarIn then s else s.modG fun g => { g with gbarIn := true, gbarUse := g.gbarUse + 1 }
      let n := s1.g.gbarUse
      s1.issue (waitIf (!s1.gbarDone n) .gbar (.gbar n)) fun s => s.modG fun g => { g with gbarIn := false }
    | c => s.issue c id

/-- WAITC (R191). -/
def execWaitc (c : BitVec 3) (n : BitVec 6) (s : State) : Host.Outcome State Fault Refusal :=
  s.issue (firstCheck [raiseIf (decide (5 < c.toNat)) (illegal 0), waitIf (!s.g.settled c.toNat n.toNat) .waitc]) id

/-! ### Monitors (R167, R168) -/

/-- A group's monitor ended by a newer one, or by a full table (R167, R168). -/
def State.monRoom (s : State) : State :=
  let s1 := s.endMonitor s.g.key 6
  let gr := groveOf s.g.core
  match (s1.grove gr).mons with
  | k :: t => if 64 ≤ (k :: t).length then s1.loseMonitor k 2 else s1
  | [] => s1

/-- MONW (R167). -/
def execMonw (d addr b : BitVec 7) (scope : BitVec 3) (s : State) : Host.Outcome State Fault Refusal :=
  let g := s.g
  let va := g.spair addr.toNat
  let off := g.sreg b.toNat
  let w := g.sreg (b.toNat + 1)
  let words := (w.extractLsb' 26 5).toNat + 1
  let opds := operandCheck g [sOpd addr 4 false 2, sOpd b 2 false 2] [sOpd d 3]
  if w.getLsbD 31 then
    s.issue opds fun s => (s.endMonitor s.g.key 6).modG fun g => g.setS d.toNat 0
  else
    let own := firstCheck [opds, s.atomCheck,
      raiseIf (va.toNat % 4 != 0 || decide (128 < va.toNat % 128 + 4 * words)) (raiseOpnd .misaligned 4 va),
      raiseIf (off.toNat % 16 != 0) (raiseOpnd .misaligned 2 (off.zeroExtend 64))]
    let bound := spadCheck s.tm.w off.toNat 16 16 2
    match s.placeOne .read 4 4 va with
    | .error c => s.issue (firstCheck [own, c]) id
    | .ok p =>
      s.issue (firstCheck [own, bound, s.laneCheck ([(0, p)], none) false 0 (4 * words) fun _ => []]) fun s =>
        let s1 := (s.l1Access false (localLines [(0, p)] (4 * words))).monRoom
        let m : Monitor :=
          { pa := (match p with | .loc pa _ => pa | .rem k o _ => farMon k o), va := va.toNat, words := words, scope := scope,
            obj := off.toNat, token := d.toNat, timeout := (w.extractLsb' 0 26).toNat, cause := none }
        (s1.modG fun g => { (g.setEmpty true d.toNat true) with mon := some m }).modGrove (groveOf g.core) fun x =>
          { x with mons := x.mons ++ [s.g.key] }

/-- MONITOR_TIMEOUT: the timeout of an armed monitor expires (R168). -/
def execMonitorTimeout (g : Nat) (s : State) : Host.Outcome State Fault Refusal :=
  .next (match s.group? g with
    | some x =>
      match x.mon with
      | some m => if m.timeout ≠ 0 && m.cause.isNone then s.loseMonitor g 5 else s
      | none => s
    | none => s)

/-- MONITOR_END: a monitor that has met its cause writes it and arrives, while no halt of its context is in progress (R168, R383). -/
def execMonitorEnd (g : Nat) (s : State) : Host.Outcome State Fault Refusal :=
  .next (match s.group? g with
    | some x =>
      match x.mon with
      | some m => (match m.cause with | some c => (if s.lineUp x.ctx then s else s.endMonitor g c) | none => s)
      | none => s
    | none => s)

end Sys2Proof.Machine
end

