-- ==== Sys2Proof/Machine/Tiles.lean ====
section
/-! DEFINITION. Tile handle instructions and tile transfers (R326 to R335, R349). -/

namespace Sys2Proof.Machine

/-! ### Checks every tile instruction shares -/

/-- Instructions 0xC0 to 0xCF issue only with every lane active (R244). -/
def State.convergeCheck (s : State) : Check := raiseIf (!s.g.allActive) { code := .illegalConvergence }

/-- A handle of the focused team. -/
def State.handle (s : State) (n : Nat) : Handle := s.tm.handle n

/-- A handle may be named: it is defined (R326). -/
def State.definedCheck (s : State) (n : Nat) : Check := raiseIf (!(s.handle n).defined) (illegal 2)

/-- A handle whose elements are read or written: its format register is set as well (R134, R326). -/
def State.handleCheck (s : State) (n : Nat) : Check :=
  let h := s.handle n
  raiseIf (!h.defined || (isNf4 h.tag && unsetFmt (s.g.tileReg h.tag))) (illegal 2)

/-- Room for one more MMA operation (R190); the operations of a graft unit are counted with the unit (R358). -/
def State.mmaRoom (s : State) : Check := if s.g.rule.isSome then .ok else counterCheck s.g 3 1

/-- The checks of a tile instruction: operands, convergence, its own, and the counter. -/
def State.tileCheck (s : State) (srcs : List Opd) (own : List Check) : Check :=
  firstCheck [operandCheck s.g srcs [] s.convergeCheck, firstCheck own, s.mmaRoom]

/-- A tile operation issued: it captures what it names, and counts on MMA unless it is part of a graft unit, which counts its
originals (R349, R358). -/
def State.startTile (s : State) (kind : TileKind) (pieces sideAt : List Piece) : State :=
  let (k, s1) := s.takeKey
  let x : TileOp :=
    { id := k, g := s.g.key, team := s.g.team, ctx := s.g.ctx, core := s.g.core, pc := s.g.pc, mode := s.g.mode, kind := kind
      pieces := pieces, sideAt := sideAt, rule := s.g.rule, term := s.g.term }
  ({ s1 with tops := s1.tops ++ [x] }).modG fun g => if g.rule.isSome then g else g.addOp 3 k

/-! ### tdef (R328) -/

/-- The descriptor image at a window offset, as a number. -/
def State.tileImage (s : State) (off : Nat) : Nat := winNat s.tm.win off 32

/-- The descriptor of an image; `f` is the format register its tag names. -/
def handleOfImage (x : Nat) (f : Word) : Handle :=
  let tag := BitVec.ofNat 5 (bitsN x 0 5)
  { scoff := BitVec.ofNat 32 (bitsN x 96 32)
    base := BitVec.ofNat 32 (bitsN x 64 32)
    stride := BitVec.ofNat 16 (bitsN x 48 16)
    rowsm1 := BitVec.ofNat 6 (bitsN x 42 6)
    colsm1 := BitVec.ofNat 10 (bitsN x 32 10)
    trans := bitsN x 8 1 == 1
    tag := tag
    sblk := isNf4 tag && (narrowFmt f).sblk }

/-- A tag that a descriptor may hold (R327). -/
def tagLegal (t : BitVec 5) : Bool := tagBytes t != 0

/-- Check 2 of R328. -/
def imageBad (x : Nat) (f : Word) : Bool :=
  let h := handleOfImage x f
  bitsN x 176 16 != 0 || bitsN x 128 32 != 0 || bitsN x 9 23 != 0 || bitsN x 5 3 != 0 || !tagLegal h.tag ||
    (isNf4 h.tag && unsetFmt f) || decide (h.stride.toNat < h.rowBytes) || h.stride.toNat % 16 != 0 ||
    h.base.toNat % 16 != 0 || (h.sblk && h.cols % 32 != 0)

/-- The format register that the tag of an image names. -/
def Group.imageReg (g : Group) (x : Nat) : Word := g.tileReg (BitVec.ofNat 5 (bitsN x 0 5))

/-- `tdef hN, sA` (R328); it waits for earlier tile operations of the group that name hN. -/
def execTdef (a : BitVec 7) (n : BitVec 5) (ea : Bool) (s : State) : Host.Outcome State Fault Refusal :=
  let off := (s.g.sreg a.toNat).toNat
  let x := s.tileImage off
  let h := handleOfImage x (s.g.imageReg x)
  let own := [spadCheck s.tm.w off 32 32 1, s.tm.soundCheck off 32, raiseIf (imageBad x (s.g.imageReg x)) (illegal 2),
    raiseIf (h.ranges.any fun r => decide (s.tm.w < r.1 + r.2)) (raiseOpnd .spadBounds 1 (BitVec.ofNat 64 off))]
  s.issue (firstCheck [operandCheck s.g [sOpd a 1 ea] [] s.convergeCheck, firstCheck own,
    waitIf (s.namesHandle s.g.key n.toNat) .mma]) fun s =>
    s.modTm fun t => t.setHandle n.toNat { h with hgen := (t.handle n.toNat).hgen + 1 }

/-- `tdef.meas hN` (R328). -/
def execTdefMeas (n : BitVec 5) (s : State) : Host.Outcome State Fault Refusal :=
  let h := s.handle n.toNat
  s.issue (s.tileCheck [] [s.handleCheck n.toNat]) fun s => s.startTile (.meas h n.toNat (s.g.tileReg h.tag)) [] []

/-! ### Descriptors (R330, R331) -/

/-- A descriptor word of `tinfo` (R331). -/
def Handle.word (h : Handle) (w : Nat) : Word :=
  match w with
  | 0 => BitVec.ofNat 32 (h.tag.toNat + (if h.trans then 256 else 0))
  | 1 => BitVec.ofNat 32 (h.colsm1.toNat + 2 ^ 10 * h.rowsm1.toNat + 2 ^ 16 * h.stride.toNat)
  | 2 => h.base
  | _ => BitVec.ofNat 32 h.hgen.toNat

/-- A scalar result on its way (R139). -/
def State.produceWord (s : State) (d : Nat) (x : Word) : State :=
  s.produce { scalar := true, d := d, n := 1, mask := 1, data := [x], tag := none, counted := false }

/-- `tinfo.w sD, hN` (R331). -/
def execTinfo (d : BitVec 7) (w : BitVec 2) (n : BitVec 5) (s : State) : Host.Outcome State Fault Refusal :=
  s.issue (firstCheck [operandCheck s.g [] [sOpd d 3] s.convergeCheck, s.definedCheck n.toNat,
    waitIf (s.namesHandle s.g.key n.toNat) .mma]) fun s => s.produceWord d.toNat ((s.handle n.toNat).word w.toNat)

/-- `ttrans hD, hS` (R330); it waits for earlier tile operations of the group that name either handle. -/
def execTtrans (hA hB : BitVec 5) (s : State) : Host.Outcome State Fault Refusal :=
  s.issue (firstCheck [s.convergeCheck, s.definedCheck hA.toNat, s.definedCheck hB.toNat,
    waitIf (s.namesHandle s.g.key hA.toNat || s.namesHandle s.g.key hB.toNat) .mma]) fun s =>
    let busy : Bool := s.namesHandle s.g.key hA.toNat || s.namesHandle s.g.key hB.toNat
    let s1 := s.modTm fun t =>
      let src := t.handle hB.toNat
      t.setHandle hA.toNat
        { src with
          trans := !src.trans, hgen := (t.handle hA.toNat).hgen + 1
          hm := if busy then infF32 else src.hm
          hb := if busy then infF32 else boundAdd src.hb s.g.term }
    if busy then s1.startTile (.trn hA.toNat hB.toNat) [] [] else s1

/-! ### Conversions (R334, R335) -/

/-- Two handles of one logical shape. -/
def Handle.sameShape (a b : Handle) : Bool := a.lrows == b.lrows && a.lcols == b.lcols

/-- `tcvt hD, hS` (R334). -/
def execTcvt (hA hB : BitVec 5) (s : State) : Host.Outcome State Fault Refusal :=
  let d := s.handle hA.toNat
  let h := s.handle hB.toNat
  s.issue (s.tileCheck [] [s.handleCheck hA.toNat, s.handleCheck hB.toNat, raiseIf (!d.sameShape h) (illegal 3)]) fun s =>
    s.startTile (.cvt d h hA.toNat hB.toNat (s.g.tileReg d.tag) (s.g.tileReg h.tag)) [] []

/-- A float tag of a tile (R335). -/
def floatTile (t : BitVec 5) : Bool := t == 3 || t == 4 || t == 5 || t == 8 || isNf4 t

/-- `tscl hD, hS, sC` (R335). -/
def execTscl (d a : BitVec 7) (sn : BitVec 5) (ea : Bool) (s : State) : Host.Outcome State Fault Refusal :=
  let hd := s.handle d.toNat
  let hs := s.handle sn.toNat
  s.issue (s.tileCheck [sOpd a 1 ea] [s.handleCheck d.toNat, s.handleCheck sn.toNat,
    raiseIf (!(floatTile hd.tag && floatTile hs.tag)) (illegal 2), raiseIf (!hd.sameShape hs) (illegal 3)]) fun s =>
    s.startTile (.scl hd hs d.toNat sn.toNat (s.g.tileReg hd.tag) (s.g.tileReg hs.tag) (s.g.sreg a.toNat)) [] []

/-! ### Transfers (R332) -/

/-- What follows from a translation that does not pass, at issue. -/
def XRes.toCheck : XRes → Check
  | .raise r => .raise r
  | .hold leaf => .wait .handover (.handover leaf)
  | .miss q => .walk q
  | _ => .ok

/-- Rows translated in order, each with its alignment first; the first that does not pass decides (R149, R332). -/
def State.rowPieces (s : State) (kind : AccKind) (align n opnd : Nat) : List DWord → Except Check (List Piece)
  | [] => .ok []
  | va :: t =>
    if va.toNat % align ≠ 0 then .error (.raise (raiseOpnd .misaligned opnd va))
    else
      match s.pieces s.cx { agent := 0, core := s.g.core, later := true } kind (runs va n) with
      | .error x => .error x.toCheck
      | .ok p =>
        match s.rowPieces kind align n opnd t with
        | .error c => .error c
        | .ok r => .ok (p ++ r)

/-- The memory addresses of a tile's rows (R332). -/
def Group.tileRows (g : Group) (a : BitVec 7) (h : Handle) : List DWord :=
  (List.range h.rows).map fun r => g.spair a.toNat + BitVec.ofInt 64 (r * (g.sreg (a.toNat + 2)).toInt)

/-- `tld` and `tst`: the rows and the sidecar translated, then one operation (R226, R332). -/
def State.tileMove (s : State) (store : Bool) (d a : BitVec 7) (side : Bool) (n : Nat) (ea ed : Bool) : Host.Outcome State Fault Refusal :=
  let h := s.handle n
  let kind : AccKind := if store then .write else .read
  let srcs := sOpd a 1 ea 3 :: (if side then [sOpd d 3 ed 2] else [])
  let first := [if store then s.definedCheck n else s.handleCheck n, waitIf (s.tileBusy s.g.key (if store then h.ranges else []) (if store then [] else h.ranges)) .mma,
    s.atomCheck]
  match if s.g.forced then .ok else firstCheck [operandCheck s.g srcs [] s.convergeCheck, firstCheck first] with
  | .ok =>
    match s.rowPieces kind (tagBytes h.tag) h.rowBytes 1 (s.g.tileRows a h),
        (if side then s.rowPieces kind 16 16 3 [s.g.spair d.toNat] else .ok []) with
    | .error c, _ => s.issue c id
    | _, .error c => s.issue c id
    | .ok p, .ok q =>
      s.issue (s.tileCheck srcs first) fun s =>
        let f := s.g.tileReg h.tag
        s.startTile (if store then .st h n f side else .ld h n f side) p q
  | c => s.issue c id

/-- `tld hN, [sA], sD` (R332). -/
def execTld (d a : BitVec 7) (side : Bool) (n : BitVec 5) (ea ed : Bool) (s : State) : Host.Outcome State Fault Refusal :=
  s.tileMove false d a side n.toNat ea ed

/-- `tst hN, [sA], sD` (R332). -/
def execTst (d a : BitVec 7) (side : Bool) (n : BitVec 5) (ea ed : Bool) (s : State) : Host.Outcome State Fault Refusal :=
  s.tileMove true d a side n.toNat ea ed

/-- A tile operation that needs no grant is performed, or sends what it needs of another package (R349); one that has begun ends before
its context stops (R351). -/
def execTileTransferDone (op : Nat) (s : State) : Host.Outcome State Fault Refusal :=
  match s.tops.find? (·.id == op) with
  | none => .next s
  | some x => if (s.ctxRuns x.ctx || s.topMid x) && s.tileReady x then .next (s.doTile x) else .next s

end Sys2Proof.Machine
end

