-- ==== Sys2Proof/Machine/Matrix.lean ====
section
/-! DEFINITION. Banks, stationary planes and products: the array instructions and the arbiter's steps (R336 to R347). -/

namespace Sys2Proof.Machine

/-! ### Ownership and chains -/

/-- BANK_OWNER with its reason, chain position and bank (R336, R375). -/
def bankOwner (reason pos n : Nat) : Raise := { code := .bankOwner, info := BitVec.ofNat 12 (reason + 16 * pos + 256 * n) }

/-- The group owns the bank (R336). -/
def State.ownCheck (s : State) (gr n pos : Nat) : Check :=
  let b := s.bank gr n
  if b.heldFor.isSome then .raise (bankOwner 2 pos n)
  else if b.owner = some s.g.key then .ok
  else .raise (bankOwner 1 pos n)

/-- Arrays that an instruction works on: its own grove's, or those of its chain (R344). -/
def State.chainLen (s : State) (chain : Bool) : Nat := if chain then s.g.chain.toNat + 1 else 1

/-- The group's own array. -/
def State.myGrove (s : State) : Nat := groveOf s.g.core

/-- The chain stays in its row and in the partition (R344). -/
def State.chainCheck (s : State) (chain : Bool) : Check :=
  let len := s.chainLen chain
  raiseIf (chain && (decide (7 < s.myGrove % 8 + len - 1) || !((rangeFrom s.myGrove len).all s.cx.inPart))) (illegal 4)

/-- The group owns the bank in every array of its chain. -/
def State.ownAll (s : State) (chain : Bool) (n : Nat) : Check :=
  firstCheck ((List.range (s.chainLen chain)).map fun j => s.ownCheck (s.myGrove + j) n j)

/-- An earlier operation of the group on the bank is outstanding in some array of the chain. -/
def State.bankBusy (s : State) (chain : Bool) (n : Nat) : Check :=
  waitIf ((rangeFrom s.myGrove (s.chainLen chain)).any fun a => s.namesBank s.g.key a n) .mma

/-- A bank may be claimed by the group (R337). -/
def State.claimable (s : State) (gr n : Nat) : Bool :=
  let b := s.bank gr n
  b.owner == some s.g.key || (b.owner.isNone && b.heldFor.isNone)

/-- A bank claimed (R337); its elements become +0 when its last owner was of another context. -/
def State.claim (s : State) (gr n : Nat) : State :=
  s.modBank gr n fun b =>
    if b.owner = some s.g.key then b
    else
      let b1 := if b.lastCtx = s.g.ctx then b else { b with elems := [], freeFrom := none }
      { b1 with owner := some s.g.key, lastCtx := s.g.ctx, bnd := infF32, isSealed := true }

/-- `acq aN` (R337, R344). -/
def execAcq (chain : Bool) (bank : BitVec 4) (s : State) : Host.Outcome State Fault Refusal :=
  s.issue (firstCheck [s.convergeCheck, s.chainCheck chain]) fun s =>
    let l := rangeFrom s.myGrove (s.chainLen chain)
    if l.all fun a => s.claimable a bank.toNat then
      (l.foldl (fun (t : State) (a : Nat) => t.claim a bank.toNat) s).modG (·.setScc true)
    else s.modG (·.setScc false)

/-- `rel aN` (R338, R344). -/
def execRel (chain : Bool) (bank : BitVec 4) (s : State) : Host.Outcome State Fault Refusal :=
  s.issue (firstCheck [s.convergeCheck, s.chainCheck chain, s.ownAll chain bank.toNat, s.bankBusy chain bank.toNat]) fun s =>
    (rangeFrom s.myGrove (s.chainLen chain)).foldl (fun (t : State) (a : Nat) => t.releaseBank a bank.toNat) s

/-! ### Array steps -/

/-- An array step queued at an arbiter (R347). -/
def State.queueStep (s : State) (gr len bank : Nat) (kind : StepKind) : State :=
  let (k, s1) := s.takeKey
  let x : ArrayStep :=
    { id := k, g := s.g.key, team := s.g.team, ctx := s.g.ctx, pos := s.g.core % 4, pc := s.g.pc, bank := bank, chainLen := len
      mode := s.g.mode, kind := kind, rule := s.g.rule, term := s.g.term }
  (s1.modArray gr fun u => { u with queue := u.queue ++ [x] }).modG fun g => if g.rule.isSome then g else g.addOp 3 k

/-- The partner of a bank can be claimed for its pair: held for this very bank, or claimable by the group under R337 (R339). -/
def State.pairFree (s : State) (gr n : Nat) : Bool :=
  (s.bank gr (partnerOf n)).heldFor == some n || s.claimable gr (partnerOf n)

/-- The pair of a bank before `bclr` or `awr` begins: a held partner freed, and with PAIR the partner claimed, SCC saying
whether that succeeded (R339). A bank held as a partner has no owner of its own (R336). -/
def State.setPair (s : State) (n : Nat) (pair : Bool) (l : List Nat) : State :=
  let s1 := l.foldl (fun (t : State) (a : Nat) => t.freePartner a n) s
  if pair then
    if s1.pairFree s1.myGrove n then
      ((s1.modBank s1.myGrove n fun b => { b with paired := true }).modBank s1.myGrove (partnerOf n) fun p =>
        { p with heldFor := some n, owner := none }).modG (·.setScc true)
    else s1.modG (·.setScc false)
  else s1

/-- `bclr aN` (R339). -/
def execBclr (chain : Bool) (bank : BitVec 4) (pair : Bool) (s : State) : Host.Outcome State Fault Refusal :=
  let n := bank.toNat
  s.issue (s.tileCheck [] [s.chainCheck chain, s.ownAll chain n, s.bankBusy chain n]) fun s =>
    (s.setPair n pair (rangeFrom s.myGrove (s.chainLen chain))).queueStep s.myGrove (s.chainLen chain) n .bclr

/-- The rectangle fits within 64 × 64. -/
def rectCheck (r c : BitVec 2) (m n : Nat) : Check :=
  raiseIf (decide (64 < 16 * r.toNat + m) || decide (64 < 16 * c.toNat + n)) (illegal 3)

/-- `awr aN, hA, rb, cb` (R339). -/
def execAwr (bank : BitVec 4) (hA : BitVec 5) (r c : BitVec 2) (pair : Bool) (s : State) : Host.Outcome State Fault Refusal :=
  let n := bank.toNat
  let h := s.handle hA.toNat
  s.issue (s.tileCheck [] [s.handleCheck hA.toNat, s.ownCheck s.myGrove n 0,
    raiseIf (h.tag == 8 && !(pair && s.pairFree s.myGrove n)) (bankOwner 3 0 n), rectCheck r c h.lrows h.lcols,
    s.bankBusy false n]) fun s =>
    (s.setPair n pair [s.myGrove]).queueStep s.myGrove 1 n (.awr h hA.toNat (s.g.tileReg h.tag) r.toNat c.toNat)

/-- `ard hD, aN, rb, cb` (R346). -/
def execArd (chain : Bool) (bank : BitVec 4) (hA : BitVec 5) (r c : BitVec 2) (s : State) : Host.Outcome State Fault Refusal :=
  let n := bank.toNat
  let h := s.handle hA.toNat
  let last := s.chainLen chain - 1
  s.issue (s.tileCheck [] [s.handleCheck hA.toNat, s.chainCheck chain, s.ownCheck (s.myGrove + last) n last,
    rectCheck r c h.lrows h.lcols]) fun s =>
    s.queueStep (s.myGrove + last) 1 n (.ard h hA.toNat (s.g.tileReg h.tag) r.toNat c.toNat)

/-! ### Planes (R341, R342) -/

/-- The plane pair of the issuing core's position in an array. -/
def State.myPlanes (s : State) (gr : Nat) : PlanePair := s.planes gr (s.g.core % 4)

/-- The tile fits a plane (R340, R341). -/
def planeCheck (h : Handle) (f : Word) : Check :=
  match planeClass h.tag f with
  | none => .raise (illegal 2)
  | some c =>
    firstCheck [raiseIf (h.sblk && !h.trans) (illegal 2),
      raiseIf (decide (c.maxK < h.lrows) || decide (64 < h.lcols)) (illegal 3)]

/-- `ldw hB` (R341). -/
def execLdw (hB : BitVec 5) (s : State) : Host.Outcome State Fault Refusal :=
  let h := s.handle hB.toNat
  s.issue (s.tileCheck [] [s.handleCheck hB.toNat, planeCheck h (s.g.tileReg h.tag)]) fun s =>
    s.startTile (.ldw h hB.toNat (s.g.tileReg h.tag)) [] []

/-- A plane load or a swap of the core has not been performed. -/
def State.loadingPlane (s : State) (core : Nat) : Bool := s.tops.any fun x => x.core == core && x.kind.onPlanes

/-- A swap of the issuing core's position has not been performed in some of `len` arrays from its own eastward. -/
def State.swapping (s : State) (len : Nat) : Bool :=
  s.tops.any fun x => x.kind == .swp && x.core % 4 == s.g.core % 4 && (rangeFrom s.myGrove len).contains (groveOf x.core)

/-- `swpw` has to wait for a plane load or a product (R342). -/
def State.planesBusy (s : State) : Bool :=
  s.loadingPlane s.g.core || s.planeInUse s.myGrove (s.g.core % 4) s.fresh

/-- `swpw` (R342). -/
def execSwpw (s : State) : Host.Outcome State Fault Refusal :=
  s.issue (firstCheck [s.convergeCheck, waitIf s.planesBusy .mma]) fun s =>
    if s.planesBusy then s.startTile .swp [] [] else s.swapPlanes s.g.core

/-! ### Products (R343, R345) -/

/-- What the planes of an `mmac` agree on: the class with A, and N (R345). -/
def Group.planeKey (g : Group) (h : Handle) (p : Plane) : Option MmaClass × Nat :=
  (mmaClass h.tag p.tag (g.tileReg h.tag) p.fmt, p.n)

/-- The plane differs from that of array 0 of the chain in what R345 asks to be one. -/
def State.planeDiffers (s : State) (h : Handle) (p : Plane) : Bool :=
  match (s.myPlanes s.myGrove).front with
  | some q => s.g.planeKey h p != s.g.planeKey h q
  | none => false

/-- The checks of R343 for array `j` of the chain. -/
def State.productCheck (s : State) (chain : Bool) (n j : Nat) (h : Handle) (hd : Check) (r c : BitVec 2) : Check :=
  match (s.myPlanes (s.myGrove + j)).front with
  | none => firstCheck [hd, .raise (illegal 2)]
  | some p =>
    let cls := mmaClass h.tag p.tag (s.g.tileReg h.tag) p.fmt
    firstCheck
      [ hd, raiseIf (h.sblk && h.trans) (illegal 2), s.ownCheck (s.myGrove + j) n j,
        (match cls with
        | none => .raise (if s.g.fmtTrap then { code := .formatTag, info := BitVec.ofNat 12 h.tag.toNat, opnd := 1 } else illegal 2)
        | some .f64 => raiseIf (!(s.bank (s.myGrove + j) n).paired) (bankOwner 3 j n)
        | some _ => .ok),
        raiseIf (decide (64 < h.lrows) || (!chain && h.lcols != p.k) || s.planeDiffers h p || decide ((cls.getD .n4).maxK < p.k)) (illegal 3),
        rectCheck r c h.lrows p.n,
        raiseIf (p.ownerCtx != s.g.ctx) (bankOwner 4 j n) ]

/-- The K values of an `mmac`'s planes add up to A's columns (R345). -/
def State.chainShape (s : State) (len : Nat) (h : Handle) : Check :=
  let ps := (List.range len).filterMap fun j => (s.myPlanes (s.myGrove + j)).front
  raiseIf ((ps.map (·.k)).sum != h.lcols) (illegal 3)

/-- `mma` and `mmac` (R343, R345). -/
def State.product (s : State) (chain : Bool) (bank : BitVec 4) (hA : BitVec 5) (r c : BitVec 2) (neg : Bool) (sg : BitVec 3) :
    Host.Outcome State Fault Refusal :=
  let n := bank.toNat
  let h := s.handle hA.toNat
  let len := s.chainLen chain
  let per := (List.range len).map fun j => s.productCheck chain n j h (s.handleCheck hA.toNat) r c
  s.issue (s.tileCheck [] [waitIf (s.swapping len) .mma, s.chainCheck chain, firstCheck per,
      if chain then s.chainShape len h else .ok]) fun s =>
    s.queueStep s.myGrove len n (.mma h hA.toNat (s.g.tileReg h.tag) r.toNat c.toNat neg sg.toInt chain)

/-- `mma aN, hA, rb, cb` (R343). -/
def execMma (bank : BitVec 4) (hA : BitVec 5) (r c : BitVec 2) (g : Bool) (sg : BitVec 3) (s : State) : Host.Outcome State Fault Refusal :=
  s.product false bank hA r c g sg

/-- `mmac aN, hA, rb, cb` (R345). -/
def execMmac (bank : BitVec 4) (hA : BitVec 5) (r c : BitVec 2) (g : Bool) (sg : BitVec 3) (s : State) : Host.Outcome State Fault Refusal :=
  s.product true bank hA r c g sg

/-! ### The arbiter's events -/

/-- The arbiter starts a step (R347). -/
def execArrayStepStart (array : Nat) (s : State) : Host.Outcome State Fault Refusal := .next (s.stepStart array)

/-- A started step ends (R229, R347). -/
def execArrayStepEnd (array : Nat) (s : State) : Host.Outcome State Fault Refusal := .next (s.stepEnd array)

/-- A re-issue runs (R233). -/
def execReissue (array bank : Nat) (s : State) : Host.Outcome State Fault Refusal := .next (s.stepReissue array bank)

end Sys2Proof.Machine
end

