-- ==== Sys2Proof/Machine/Bounds.lean ====
section
/-! DEFINITION. Bound and log instructions (R238). -/

namespace Sys2Proof.Machine

/-- The bank of the group's own array. -/
def State.myBank (s : State) (n : Nat) : Bank := s.bank s.myGrove n

/-- The checks of an instruction that names a bank: operands, ownership, and the group's earlier operations on it. -/
def State.bankCheck (s : State) (srcs dsts : List Opd) (n : BitVec 4) : Check :=
  firstCheck [operandCheck s.g srcs dsts, s.ownCheck s.myGrove n.toNat 0, s.bankBusy false n.toNat]

/-- The checks of an instruction that names a handle. -/
def State.namedCheck (s : State) (srcs dsts : List Opd) (n : BitVec 5) : Check :=
  firstCheck [operandCheck s.g srcs dsts, s.definedCheck n.toNat, waitIf (s.namesHandle s.g.key n.toNat) .mma]

/-- A bank of the group's own array changed. -/
def State.modMyBank (s : State) (n : BitVec 4) (f : Bank → Bank) : State := s.modBank s.myGrove n.toNat f

/-- The bound of a handle changed. -/
def State.modBound (s : State) (n : BitVec 5) (f : Word → Word) : State :=
  s.modTm fun t => t.setHandle n.toNat { t.handle n.toNat with hb := f (t.handle n.toNat).hb }

/-- `bndrd sD, aN` (R238). -/
def execBndrd (d : BitVec 7) (n : BitVec 4) (s : State) : Host.Outcome State Fault Refusal :=
  s.issue (s.bankCheck [] [sOpd d 3] n) fun s => s.produceWord d.toNat (s.myBank n.toNat).bnd

/-- `bndrd.stat sD, aN` (R238). -/
def execBndrdStat (d : BitVec 7) (n : BitVec 4) (s : State) : Host.Outcome State Fault Refusal :=
  s.issue (s.bankCheck [] [sOpd d 3] n) fun s => s.produceWord d.toNat (s.myBank n.toNat).status

/-- `bndwr aN, sA` (R238). -/
def execBndwr (a : BitVec 7) (n : BitVec 4) (ea : Bool) (s : State) : Host.Outcome State Fault Refusal :=
  s.issue (s.bankCheck [sOpd a 1 ea] [] n) fun s =>
    s.modMyBank n fun b => { b with bnd := maxBound b.bnd (boundOfReg (s.g.sreg a.toNat)) }

/-- `bndwr.inv aN` (R238). -/
def execBndwrInv (n : BitVec 4) (s : State) : Host.Outcome State Fault Refusal :=
  s.issue (s.bankCheck [] [] n) fun s => s.modMyBank n fun b => { b with bnd := infF32, isSealed := true }

/-- `hbnd sD, hN` (R238). -/
def execHbnd (d : BitVec 7) (n : BitVec 5) (s : State) : Host.Outcome State Fault Refusal :=
  s.issue (s.namedCheck [] [sOpd d 3] n) fun s => s.modG fun g => g.setS d.toNat (s.handle n.toNat).hb

/-- `hbnd.max sD, hN` (R238). -/
def execHbndMax (d : BitVec 7) (n : BitVec 5) (s : State) : Host.Outcome State Fault Refusal :=
  s.issue (s.namedCheck [] [sOpd d 3] n) fun s => s.modG fun g => g.setS d.toNat (s.handle n.toNat).hm

/-- `hbnd.raise hN, sA` (R238). -/
def execHbndRaise (a : BitVec 7) (n : BitVec 5) (ea : Bool) (s : State) : Host.Outcome State Fault Refusal :=
  s.issue (s.namedCheck [sOpd a 1 ea] [] n) fun s => s.modBound n fun b => maxBound b (boundOfReg (s.g.sreg a.toNat))

/-- `hbnd.set hN, sA` (R238). -/
def execHbndSet (a : BitVec 7) (n : BitVec 5) (ea : Bool) (s : State) : Host.Outcome State Fault Refusal :=
  s.issue (s.namedCheck [sOpd a 1 ea] [] n) fun s => s.modBound n fun _ => boundOfReg (s.g.sreg a.toNat)

/-- `mlog.stat sD, aN` (R238). -/
def execMlogStat (d : BitVec 7) (n : BitVec 4) (s : State) : Host.Outcome State Fault Refusal :=
  s.issue (s.bankCheck [] [sOpd d 3] n) fun s =>
    s.produceWord d.toNat
      (BitVec.ofNat 32 ((s.myBank n.toNat).logcnt * 16 + s.refusal s.myGrove n.toNat s.g.mode))

/-- `mlog.reissue sD, aN` (R238): its code at once when there is nothing to run; otherwise the group waits for the array. -/
def execMlogReissue (d : BitVec 7) (n : BitVec 4) (s : State) : Host.Outcome State Fault Refusal :=
  let code := if (s.myBank n.toNat).paired then 0 else s.refusal s.myGrove n.toNat s.g.mode
  match s.bankCheck [] [sOpd d 3] n with
  | .ok =>
    if (s.myBank n.toNat).paired || code != 0 then
      s.issue .ok fun s => s.modG fun g => g.setS d.toNat (BitVec.ofNat 32 code)
    else
      let (k, s1) := s.takeKey
      let x : ArrayStep :=
        { id := k, g := s.g.key, team := s.g.team, ctx := s.g.ctx, pos := s.g.core % 4, pc := s.g.pc, bank := n.toNat, chainLen := 1
          mode := s.g.mode, kind := .reissue d.toNat, wantReissue := true }
      .next (((s1.modArray s.myGrove fun u => { u with queue := u.queue ++ [x] }).modG fun g => { g with inProgress := true }).waitAt
        .mma .resource)
  | c => s.issue c id

/-- `mlog.seal aN` (R238). -/
def execMlogSeal (n : BitVec 4) (s : State) : Host.Outcome State Fault Refusal :=
  s.issue (s.bankCheck [] [] n) fun s => s.modMyBank n fun b => { b with isSealed := true }

end Sys2Proof.Machine
end

