-- ==== Sys2Proof/Machine/Control.lean ====
section
/-! DEFINITION. Branches, calls, the end of a group, traps and their return, masks, MODE and format registers
(R132, R134, R250, R287 to R289, R292, R296, R381). -/

namespace Sys2Proof.Machine

/-- `PC + 4 × sext(off24)` (R287). -/
def branchTarget (pc : DWord) (off : BitVec 24) : DWord := pc + 4 * off.signExtend 64

/-- A conditional branch: its outcome is traced (R287, R408). -/
def State.branchIf (s : State) (c : Bool) (off : BitVec 24) : Host.Outcome State Fault Refusal :=
  s.issueTo .ok (if c then branchTarget s.g.pc off else s.g.pc + 4) fun s => s.emitTnt c

/-- BRA (R287). -/
def execBra (off : BitVec 24) (s : State) : Host.Outcome State Fault Refusal :=
  s.issueTo .ok (branchTarget s.g.pc off) id
/-- BRS (R287). -/
def execBrs (off : BitVec 24) (s : State) : Host.Outcome State Fault Refusal := s.branchIf s.g.scc off
/-- BRNS (R287). -/
def execBrns (off : BitVec 24) (s : State) : Host.Outcome State Fault Refusal := s.branchIf (!s.g.scc) off
/-- BRANY (R287). -/
def execBrany (off : BitVec 24) (s : State) : Host.Outcome State Fault Refusal := s.branchIf (condAny s.g) off
/-- BRALL (R287). -/
def execBrall (off : BitVec 24) (s : State) : Host.Outcome State Fault Refusal := s.branchIf (condAll s.g) off
/-- BRNONE (R287). -/
def execBrnone (off : BitVec 24) (s : State) : Host.Outcome State Fault Refusal := s.branchIf (condNone s.g) off

/-- CALL: s63 := bits(PC + 4)[31:0], then the branch (R288). -/
def execCall (off : BitVec 24) (s : State) : Host.Outcome State Fault Refusal :=
  s.issueTo (operandCheck s.g [] [sOpd 63 3]) (branchTarget s.g.pc off) fun s =>
    s.modG fun g => g.setS 63 ((g.pc + 4).extractLsb' 0 32)

/-- JR: within the 4 GiB region of the PC (R288). -/
def execJr (a : BitVec 7) (ea : Bool) (s : State) : Host.Outcome State Fault Refusal :=
  s.issueTo (operandCheck s.g [sOpd a 1 ea] []) (s.g.pc.extractLsb' 32 32 ++ s.g.sreg a.toNat) fun s =>
    s.emit (.target (s.g.sreg a.toNat))

/-- The keys of a slot's other groups that are ready (R263). -/
def State.readyMates (s : State) : List Nat :=
  (s.others.filter fun h =>
    h.live && h.core == s.g.core && h.slot == s.g.slot && (h.st == .ready || h.st == .issuing)).map (·.key)

/-- The youngest age position of a slot. -/
def State.youngest (s : State) (core slot : Nat) : Nat :=
  (s.groups.filter fun h => h.core == core && h.slot == slot).foldl (fun m h => max m (h.age + 1)) 0

/-- YIELD: youngest of its slot, held by the slot's ready groups, current := NONE, %wdcount := 0 (R248, R262, R263). -/
def execYield (s : State) : Host.Outcome State Fault Refusal :=
  .next (((s.retire (s.g.pc + 4)).modG fun g =>
    { g with age := s.youngest s.g.core s.g.slot, held := s.readyMates, wdcount := 0, st := .ready }).modCore s.g.core fun c =>
      { c with current := SMap.set none c.current s.g.slot none })

/-- EXIT: the monitor is disarmed, then the group waits for its LD, ST and MMA counters and ends; its pending bound trap
has been delivered before (R250). -/
def execExit (s : State) : Host.Outcome State Fault Refusal :=
  let s0 := s.endMonitor s.g.key 6
  if s0.g.count 0 ≠ 0 ∨ s0.g.count 1 ≠ 0 ∨ s0.g.count 3 ≠ 0 then .next (s0.waitAt .waitc .resource)
  else .next ((s0.retire (s0.g.pc + 4)).endGroup s.g.key .done)

/-- `trap` and `bkpt` wait for the group's earlier `mma` and `mmac` (R292). -/
def State.preciseCheck (s : State) : Check :=
  let mmaOf := fun (x : ArrayStep) => x.g == s.g.key && (match x.kind with | .mma .. => true | _ => false)
  waitIf (s.arrays.any fun p => p.2.queue.any mmaOf || (match p.2.started with | some x => mmaOf x | none => false)) .dependency

/-- TRAP: raises TRAP with k; the saved PC is PC + 4 (R292). -/
def execTrap (k : BitVec 12) (s : State) : Host.Outcome State Fault Refusal :=
  match s.preciseCheck with
  | .ok =>
    let s1 := (s.retire (s.g.pc + 4)).modG fun g => { g with lastCode := 0x11 }
    .next (s1.deliver { code := .trap, info := k } s1.g.pc)
  | c => s.issue c id

/-- BKPT: raises BREAKPOINT with k at its own PC; with a debugger attached the group is stopped by BKACT instead (R292,
R417). -/
def execBkpt (k : BitVec 12) (s : State) : Host.Outcome State Fault Refusal :=
  match s.preciseCheck with
  | .ok =>
    let s1 := s.modG fun g => { g with lastCode := 0x10 }
    if s.cx.attach then .next (s1.debugBreak s.cx.bkact k) else .next (s1.deliver { code := .breakpoint, info := k } s.g.pc)
  | c => s.issue c id

/-- A group with a deferred save request stops at its first boundary with TMASK = 0 (R392). -/
def State.unmaskStop (s : State) : State :=
  if s.g.tr.preq && !s.g.tr.tmask then
    ((s.modG fun g => { g with tr := { g.tr with preq := false } }).stopGroup s.g.key 2 0).forwardFrom s.g.ctx s.cx.stopSeq
  else s

/-- Return from a trap handler (R381): PC, EXEC, CMASK, MODE, SCC, IN and TMASK as saved; the next issue meets no
breakpoint (R416). -/
def State.trapReturn (s : State) : State :=
  ((s.retire s.g.tr.tep).modG fun g =>
    { g with
      exec := g.tr.tsexec, cmask := g.tr.tscm, mode := g.tr.tsmode, scc := g.tr.sscc,
      tr := { g.tr with inH := g.tr.sin, tmask := g.tr.smask }, bpSkip := true }).emit (.sync 4)

/-- RETT: outside a handler, and with an illegal value in %tsmode, ILLEGAL_OP (R292, R381). -/
def execRett (s : State) : Host.Outcome State Fault Refusal :=
  if !s.g.tr.inH || !modeLegal s.g.tr.tsmode then .next (s.raiseAt (illegal 5) s.g.pc)
  else .next s.trapReturn.unmaskStop

/-! ### Masks (R289) -/

/-- MEXEC -/
def execMexec (a : BitVec 7) (ea : Bool) (s : State) : Host.Outcome State Fault Refusal :=
  s.issue (operandCheck s.g [sOpd a 1 ea] []) fun s => s.writeExec (s.g.sreg a.toNat)
/-- MRDEXEC -/
def execMrdexec (d : BitVec 7) (s : State) : Host.Outcome State Fault Refusal :=
  s.issue (operandCheck s.g [] [sOpd d 3]) fun s => s.modG fun g => g.setS d.toNat g.exec
/-- MRDCM -/
def execMrdcm (d : BitVec 7) (s : State) : Host.Outcome State Fault Refusal :=
  s.issue (operandCheck s.g [] [sOpd d 3]) fun s => s.modG fun g => g.setS d.toNat g.cmask
/-- MWRCM -/
def execMwrcm (a : BitVec 7) (ea : Bool) (s : State) : Host.Outcome State Fault Refusal :=
  s.issue (operandCheck s.g [sOpd a 1 ea] []) fun s => s.writeCmask (s.g.sreg a.toNat)
/-- MAND: %savedexec := EXEC, then EXEC := EXEC AND CMASK -/
def execMand (s : State) : Host.Outcome State Fault Refusal :=
  s.issue .ok fun s => (s.writeExec (s.g.exec &&& s.g.cmask)).modG fun g => { g with savedexec := s.g.exec }
/-- MELSE: EXEC := %savedexec AND NOT EXEC -/
def execMelse (s : State) : Host.Outcome State Fault Refusal :=
  s.issue .ok fun s => s.writeExec (s.g.savedexec &&& ~~~s.g.exec)

/-! ### MODE and format registers (R132, R134) -/

/-- A new MODE is tested before anything is written (R132). -/
def State.setModeOp (s : State) (opd : List Opd) (new : Word) : Host.Outcome State Fault Refusal :=
  s.issue (firstCheck [operandCheck s.g opd [], raiseIf (!modeLegal new) (illegal 5 1)]) fun s =>
    s.modG fun g => { g with mode := new }

/-- SETMODE (R132). -/
def execSetmode (a : BitVec 7) (ea : Bool) (s : State) : Host.Outcome State Fault Refusal :=
  s.setModeOp [sOpd a 1 ea] (s.g.sreg a.toNat)
/-- SETMODE_MSK (R132). -/
def execSetmodeMsk (d a : BitVec 7) (ea ed : Bool) (s : State) : Host.Outcome State Fault Refusal :=
  let m := s.g.sreg d.toNat
  s.setModeOp [sOpd a 1 ea, sOpd d 3 ed] ((s.g.mode &&& ~~~m) ||| (s.g.sreg a.toNat &&& m))
/-- GETMODE (R132). -/
def execGetmode (d : BitVec 7) (s : State) : Host.Outcome State Fault Refusal :=
  s.issue (operandCheck s.g [] [sOpd d 3]) fun s => s.modG fun g => g.setS d.toNat g.mode
/-- SETFMT (R134). -/
def execSetfmt (a : BitVec 7) (k : BitVec 4) (ea : Bool) (s : State) : Host.Outcome State Fault Refusal :=
  s.issue (firstCheck [operandCheck s.g [sOpd a 1 ea] [], raiseIf (!fmtLegal (s.g.sreg a.toNat)) (illegal 5 1)]) fun s =>
    s.modG fun g => g.setFmt k.toNat (g.sreg a.toNat)
/-- GETFMT (R134). -/
def execGetfmt (d : BitVec 7) (k : BitVec 4) (s : State) : Host.Outcome State Fault Refusal :=
  s.issue (operandCheck s.g [] [sOpd d 3]) fun s => s.modG fun g => g.setS d.toNat (g.fmt k.toNat)

/-- MCOUNT: the six counters (R296). -/
def execMcount (d : BitVec 7) (s : State) : Host.Outcome State Fault Refusal :=
  s.issue (operandCheck s.g [] [sOpd d 3 false 2]) fun s =>
    s.modG fun g =>
      (g.setS d.toNat (BitVec.ofNat 32 (g.count 0 + 2 ^ 8 * g.count 1 + 2 ^ 16 * g.count 2 + 2 ^ 24 * g.count 3))).setS
        (d.toNat + 1) (BitVec.ofNat 32 (g.count 4 + 2 ^ 8 * g.count 5))

end Sys2Proof.Machine
end

