-- ==== Sys2Proof/Machine/Resident.lean ====
section
/-! DEFINITION. What is resident on a core: windows in the scratchpad ways (R62, R63, R66), what fits (R260), and the
removal of a team. -/

namespace Sys2Proof.Machine

/-- Bytes of a local store (R62). -/
def localStore : Nat := 524288

/-- The teams resident on a core. -/
def State.teamsOn (s : State) (core : Nat) : List Team := s.allTeams.filter (·.core == core)

/-- An ended group of a participating team keeps its place for the team's next record (R261, R267). -/
def State.keepsPlace (s : State) (g : Group) : Bool := match s.team? g.team with | some t => t.chunk.isSome | none => false

/-- The groups that hold a place on a core: those that have not ended, and those whose team runs further records. -/
def State.groupsOn (s : State) (core : Nat) : List Group :=
  s.groups.filter fun g => g.core == core && (g.st != .ended || s.keepsPlace g)

/-- Ways that hold the bytes from `pos` upwards (R62). -/
def waysFrom (pos : Nat) : Nat := (localStore - pos + 32767) / 32768

/-- The boundary that R63 asks for on a core. -/
def State.needWays (s : State) (core : Nat) : Nat :=
  let low := (s.teamsOn core).foldl (fun (m : Nat) (t : Team) => if t.w = 0 then m else min m t.pos) localStore
  max (if (s.core core).lend then 0 else 2) (waysFrom low)

/-- Ways beyond the boundary return to the L1 slice (R66). -/
def State.shrinkWays (s : State) (core : Nat) : State :=
  let b := s.needWays core
  s.modCore core fun c => { c with spways := min c.spways b }

/-- The highest free position for a window of `w` bytes that the maximum boundary of service allows (R62, R63). -/
def State.windowPos (s : State) (core w : Nat) : Option Nat :=
  if w = 0 then some localStore
  else
    ((List.range 385).map fun k => (512 - k) * 1024 - w).find? fun p =>
      decide (131072 ≤ p) && decide (p + w ≤ localStore) &&
        (s.teamsOn core).all fun t => t.w == 0 || decide (p + w ≤ t.pos) || decide (t.pos + t.w ≤ p)

/-- Scalar registers a group takes (R260). -/
def sregsTaken (n : Nat) : Nat := min (n + 1) 64

/-- A core fits a team of `n` groups with a window of `w` bytes (R260). -/
def State.fits (s : State) (core n vregs sregs w : Nat) : Bool :=
  let l := s.groupsOn core
  decide (l.length + n ≤ 32) && decide ((l.map (·.vregs)).sum + n * vregs ≤ 3072) &&
    decide ((l.map fun g => sregsTaken g.sregs).sum + n * sregsTaken sregs ≤ 2048) && (s.windowPos core w).isSome

/-- Free group positions of a core. -/
def State.freePlaces (s : State) (core : Nat) : Nat := 32 - (s.groupsOn core).length

/-- Engine requests that meet a condition are dropped where they stand, at a unit boundary. -/
def State.dropEngs (s : State) (p : EngReq → Bool) : State :=
  (s.engs.filter p).foldl (fun (t : State) (e : EngReq) => (t.dropTxns e.id).dropEng e) s

/-- A team and its groups leave the machine; its window is free at once (R66). -/
def State.removeTeam (s : State) (k : Nat) : State :=
  match s.team? k with
  | none => s
  | some t =>
    { s with
      g := if s.g.live && s.g.team == k then {} else s.g
      others := s.others.filter fun g => g.team != k
      tm := if s.tm.live && s.tm.key == k then {} else s.tm
      teams := s.teams.filter fun t => t.key != k }.shrinkWays t.core

/-- Accesses of a team's groups that have not been performed are dropped (R122). -/
def State.dropAccesses (s : State) (team : Nat) : State :=
  let mine := (s.groups.filter (·.team == team)).map (·.key)
  { s with
    pend := s.pend.filter fun p => !mine.contains p.g
    fab := s.fab.filter fun x => !mine.contains x.owner
    groves := s.groves.map fun p => (p.1, { p.2 with svcq := p.2.svcq.filter fun r => !mine.contains r.g }) }

/-- Everything of a team stopped and ended with a status, its engine requests and subscriptions without a cursor (R387). -/
def State.stopTeam (s : State) (k : Nat) (st : UStatus) : State :=
  let s1 := ((s.dropEngs (·.team == k)).endSubs k).dropAccesses k
  (s1.groups.filter (·.team == k)).foldl (fun (t : State) (g : Group) => t.endGroup g.key st) s1

/-- Groups of a context that a pending trap or fault can reach: between instructions, with nothing that holds them (R376). A stop on
its way comes before it (R392). -/
def State.atBoundary (s : State) (g : Group) : Bool :=
  (g.st == .ready || g.st == .issuing || g.st == .stalled || g.st == .blocked) && !g.inProgress &&
    match s.ctx? g.ctx with | some c => c.halt == .lowered && c.cut.isNone | none => false

end Sys2Proof.Machine
end

