-- ==== Sys2Proof/Machine/TrapsHalt.lean ====
section
/-! DEFINITION. Pending traps, halts and containment, the deadlock walk, saving a context, and the forced reset (R237, R248,
R333, R383 to R399). -/

namespace Sys2Proof.Machine

/-! ### Traps and faults at a boundary -/

/-- What the focused group's boundary delivers: a fault met after issue (R333), else a pending bound trap with its registers
(R237) and, for a unit of the graft stage, its rewrite record, which ends a replay (R368, R370). A group that leaves BLOCKED has its
watchdog count cleared (R248). -/
def State.deliverPending (s : State) : State :=
  let t := if s.g.st = .blocked then s.modG fun g => { g with wdcount := 0 } else s
  match s.g.late with
  | some r => (t.modG fun g => { g with late := none }).deliver r s.g.pc s.g.st
  | none =>
    match s.g.bounds with
    | [] => s
    | b :: l =>
      (t.modG fun g =>
        { g with
          bounds := l, bxdet := BitVec.ofNat 32 (256 * (b.reason % 16) + 16 * (b.bank % 16)), bxpc := b.pc
          rwrec := b.rule.getD g.rwrec, rwpc := if b.rule.isSome then b.pc else g.rwpc
          replay := if b.rule.isSome then [] else g.replay }).deliver
        { code := .boundExceeded } s.g.pc s.g.st

/-- TRAP_ENTRY: the pending trap of a group that stands at a boundary (R237, R376, R380). -/
def execTrapEntry (g : Nat) (s : State) : Host.Outcome State Fault Refusal :=
  .next (match s.group? g with
    | some x => if s.atBoundary x then s.withFocus g State.deliverPending else s
    | none => s)

/-- WATCHDOG: the count has reached the limit (R248). -/
def execWatchdog (g : Nat) (s : State) : Host.Outcome State Fault Refusal :=
  .next (match s.group? g with
    | some x =>
      if s.atBoundary x && decide (x.wdLimit ≤ x.wdcount) then
        s.withFocus g fun t => t.deliver { code := .watchdog } t.g.pc t.g.st
      else s
    | none => s)

/-! ### Halt (R383) -/

/-- The faults of a context in ascending `%gid` (R385). -/
def State.faultOrder (s : State) (l : List PendFault) : List PendFault :=
  let gid := fun (f : PendFault) => match s.group? f.g with | some g => g.gid.toNat | none => 2 ^ 32
  orderBy l fun a b => gid a ≤ gid b

/-- The stop record of a faulting group (R384). -/
def State.faultRecord (s : State) (ctx : Nat) (f : PendFault) : State :=
  let s1 := (s.settleShoot f.g).withFocus f.g State.traceStop
  match s1.group? f.g with
  | none => s1
  | some g => s1.addStop ctx (s1.groupStop g 0 (some f.raise) f.raise.code.num)

/-- FAULT_HALT: the line has reached every party and what they had begun is done. Steps 2 to 6 of R383 for a fault, and then those of
a debug halt on its way (R420). -/
def execFaultHalt (ctx : Nat) (s : State) : Host.Outcome State Fault Refusal :=
  .next (match s.ctx? ctx with
    | none => s
    | some c =>
      if s.skids ctx then s
      else if c.halt = .raised then
        let s0 := (s.abandonReissues ctx).modCtx ctx fun c => { c with haltSeq := c.stopSeq, haltCause := 1 }
        let s1 := (s0.faultOrder c.faults).foldl (fun (t : State) (f : PendFault) => t.faultRecord ctx f) s0
        (s1.haltParties ctx 1 fun _ => true).modCtx ctx fun c => { c with halt := .stopped }
      else if c.halt = .lowered ∧ c.cut = some 3 then s.debugStop ctx
      else s)

/-! ### Containment (R386 to R391) -/

/-- The policy of a unit: TERMINATE. -/
def State.policyTerminates (s : State) (g : Group) : Bool :=
  match s.unitOfGroup g with | some u => u.def_.terminate | none => true

/-- Bytes of a request not yet posted (R390). -/
def EngReq.unposted (e : EngReq) : Nat := e.rows * e.rowlen + e.acc - (e.row * e.rowlen + e.byte)

/-- The participation set withdrawn, in the order the entries were made (R389). -/
def State.withdrawAll (s : State) (g : Group) : State :=
  g.part.foldl
    (fun (t : State) (p : Nat × Word) =>
      t.modTeam g.team fun m =>
        let b := m.bar p.1
        if b.exparr = 0 then m else m.setBar p.1 (b.withdraw p.2)) s

/-- The engine operations of a terminated group stop, and what they had still to post is posted; whether one arrival was (R390,
R391). -/
def State.poisonEngs (s : State) (g : Group) : Bool × State :=
  (s.engs.filter (·.g == g.key)).foldl
    (fun (x : Bool × State) (e : EngReq) =>
      let t := (x.2.dropTxns e.id).dropEng e
      match e.bar with
      | none => (x.1, t)
      | some off =>
        let a := if e.arrive then 1 else 0
        (x.1 || (t.arriveFor g.team off a e.unposted).isSome,
          t.postArrive g.team off a e.unposted (t.lowestGroup g.team (some g.key)))) (false, s)

/-- The exit status word (R391). -/
def exitWord (code : Nat) (g : Group) (poison : Bool) : Word :=
  BitVec.ofNat 32 (code % 256 * 2 ^ 24 + g.grp.toNat * 2 ^ 19 + (if g.partOvf then 2 ^ 18 else 0) + (if poison then 2 ^ 17 else 0))

/-- The exit status word written to the group's own stop record of the halt in progress (R384, R391). -/
def State.exitStat (s : State) (g : Group) (w : Word) : State :=
  match s.ctx? g.ctx with
  | none => s
  | some c =>
    let mine := fun (r : StopRec) => r.gid == g.gid && r.cause == 0 && decide ((r.seq - c.haltSeq).toNat < 2 ^ 31)
    (c.stops.filter mine).foldl (fun (t : State) (r : StopRec) => t.ringWrite c.area { r with exitstat := w })
      (s.modCtx g.ctx fun c => { c with stops := c.stops.map fun r => if mine r then { r with exitstat := w } else r })

/-- TERMINATE of one group (R388 to R391). While its arrivals are posted it no longer counts as a group of its team (R176). -/
def State.terminate (s : State) (k code : Nat) : State :=
  match s.group? k with
  | none => s
  | some g =>
    let s1 := ((s.modGroup k fun g => { g with st := .ended }).endMonitor k 6).releaseAll k
    let (poison, s2) := (s1.withdrawAll g).poisonEngs g
    let w := exitWord code g poison
    let s3 := s2.modTeam g.team fun t => { t with termstat := w, termmask := setBit t.termmask g.grp.toNat true }
    let s4 := s3.exitStat g w
    let s5 := s4.journal { event := .terminate, ctx := g.ctx, detail := w.toNat, obj := s.objOf g, tag := s.tagOfGroup g }
    (s5.modGroup k fun h => { h with st := .stopped, part := [] }).endGroup k .terminated

/-- A unit's team is to be placed again as new: what each kind of unit keeps of it (R387). -/
def State.replaceTeam (s : State) (ctx : Nat) (u : UnitRec) (t : Team) : State :=
  match u.def_.kind with
  | 1 =>
    let stop := match t.chunk with | some (_, b) => b | none => t.idx.toNat + 1
    s.modUnit ctx u.key fun u =>
      { u with replace := u.replace ++ [(t.idx.toNat, max stop (t.idx.toNat + 1))], participants := u.participants - 1 }
  | 2 =>
    match (s.ctx? ctx).bind fun c => (s.tcbRead c u t.idx.toNat).map fun x => (c, x) with
    | none => s.poolFail ctx u.key
    | some (c, x) =>
      match s.tcbStatusWrite c u t.idx.toNat x 2 with
      | none => s.poolFail ctx u.key
      | some v => v.modUnit ctx u.key fun u => { u with readyQ := readyInsert (v.tcbPrio c u) t.idx.toNat u.readyQ }
  | _ => s

/-- RELAUNCH of the unit of a team (R387). -/
def State.relaunch (s : State) (ctx : Nat) (u : UnitRec) (t : Team) : State :=
  let key := if u.def_.coop then 0 else t.idx.toNat
  let used := SMap.get 0 u.retries key
  let teams := if u.def_.coop then s.allTeams.filter fun m => m.unit == u.key && m.ctx == ctx else [t]
  if u.def_.retry ≤ used then teams.foldl (fun (v : State) (m : Team) => v.stopTeam m.key .failed) s
  else
    let s1 := teams.foldl (fun (v : State) (m : Team) => (v.stopTeam m.key .failed).removeTeam m.key) s
    let s2 := s1.modUnit ctx u.key fun u =>
      { u with
        retries := SMap.set 0 u.retries key (used + 1)
        deferred := u.deferred.filter (·.2 != key)
        ended := if u.def_.coop then [] else u.ended
        ganged := if u.def_.coop then false else u.ganged }
    s2.replaceTeam ctx u t

/-- One fault contained (R386); a group that has ended meanwhile needs nothing more (R385). -/
def State.containOne (s : State) (ctx : Nat) (f : PendFault) : State :=
  match s.group? f.g with
  | none => s
  | some g =>
    if g.st = .ended then s
    else if s.policyTerminates g then s.terminate f.g f.raise.code.num
    else
      match s.unitOfGroup g, s.team? g.team with
      | some u, some t => s.relaunch ctx u t
      | _, _ => s

/-! ### Forced reset (R397) -/

/-- The monitors of a context dropped, with no write and no arrival (R168). -/
def State.dropMonitors (s : State) (ctx : Nat) : State :=
  (s.groupsOf ctx).foldl
    (fun (t : State) (g : Group) =>
      if g.mon.isSome then
        (t.modGroup g.key fun g => { g with mon := none }).modGrove (groveOf g.core) fun v => { v with mons := v.mons.erase g.key }
      else t) s

/-- The plane pairs of a context released (R341). -/
def State.dropPlanes (s : State) (ctx : Nat) : State :=
  let keep := fun (p : Option Plane) => match p with | some x => (if x.ownerCtx == ctx then none else some x) | none => none
  { s with arrays := s.arrays.map fun a =>
      (a.1, { a.2 with planes := a.2.planes.map fun p => (p.1, ({ front := keep p.2.front, shadow := keep p.2.shadow } : PlanePair)) }) }

/-- The teams of a context. -/
def State.teamsOf (s : State) (ctx : Nat) : List Team := s.allTeams.filter (·.ctx == ctx)

/-- A unit as a forced reset leaves it: FAILED, and nothing more of it is placed (R397). -/
def UnitRec.failAll (u : UnitRec) : UnitRec :=
  if u.complete.isSome then u
  else { u with status := .failed, cancelled := true, started := true, live := 0, readyQ := [], replace := [] }

/-- A forced reset (R397): stop records of CAUSE 4, every group ended FAILED, engines and subscriptions stopped without a
cursor, banks and planes released, every unfinished unit FAILED with its COMPLETED entry, and RESET journalled. -/
def State.forcedReset (s : State) (ctx : Nat) : State :=
  match s.ctx? ctx with
  | none => s
  | some c =>
    let s1 := ((s.dropMonitors ctx).haltParties ctx 4 fun _ => true).forwardFrom ctx c.stopSeq
    let s2 := (s1.teamsOf ctx).foldl
      (fun (t : State) (m : Team) => ((t.stopTeam m.key .failed).removeTeam m.key).journalTeam ctx m.unit m.idx.toNat .failed) s1
    let s3 := (s2.dropPlanes ctx).modCtx ctx fun c =>
      { c with
        units := c.units.map UnitRec.failAll, faults := [], halt := .lowered, cut := none, breaks := [], preempt := .none
        overdue := false, hwOwn := false, walkSnap := none }
    (s3.settle ctx).journal { event := .reset, ctx := ctx, tag := c.tag }

/-- FORCED_RESET: the save area of the context has met an error while it was written or read (R394, R396, R397); when that
happens is the outside's to say. -/
def execForcedReset (ctx : Nat) (s : State) : Host.Outcome State Fault Refusal :=
  .next (match s.ctx? ctx with
    | none => s
    | some c =>
      match c.preempt with
      | .saving .. | .saved | .restoring => s.forcedReset ctx
      | _ => s)

/-- CONTAINMENT: every fault of the halt contained in ascending `%gid`, the records forwarded, the line lowered, and what
follows for dependants settled (R383 steps 7 and 8, R385, R386). A SAVE_FAULT leads to the forced reset. -/
def execContainment (ctx : Nat) (s : State) : Host.Outcome State Fault Refusal :=
  .next (match s.ctx? ctx with
    | none => s
    | some c =>
      if c.halt ≠ .stopped ∨ s.hwHeld ctx = true then s
      else if c.faults.any (·.raise.code == .saveFault) then s.forcedReset ctx
      else
        let fresh := fun (f : PendFault) =>
          !c.stops.any fun r => r.cause == 0 && decide ((r.seq - c.haltSeq).toNat < 2 ^ 31) &&
            (match s.group? f.g with | some g => r.gid == g.gid | none => true)
        let fs := s.faultOrder c.faults
        let s1 := (fs.filter fresh).foldl (fun (t : State) (f : PendFault) => t.faultRecord ctx f)
          (s.modCtx ctx fun c => { c with faults := [] })
        let s2 := fs.foldl (fun (t : State) (f : PendFault) => t.containOne ctx f) s1
        ((s2.forwardFrom ctx c.haltSeq).lowerLine ctx).settle ctx)

/-! ### The deadlock walk (R198 to R200, R398, R399) -/

/-- The group holds a BARRIER, GBAR or EMPTY entry (R198, R200). -/
def Group.hasEntry (g : Group) : Bool :=
  (g.st == .blocked || g.st == .stalled) && match g.wait with
    | .barrier .. | .gbar _ | .empty _ => true
    | _ => false

/-- An engine operation, a subscription or a monitor will signal an object of a team (R199). -/
def State.signalled (s : State) (t : Team) (off : Nat) : Bool :=
  (s.engs.any fun e => e.team == t.key && e.bar == some off) ||
    (s.subs.any fun b => b.team == t.key &&
      let r := t.ring b.ring
      decide (r.barOff ≤ off) && decide (off < r.barOff + 16 * r.nslot) && (off - r.barOff) % 16 == 0) ||
    s.groups.any fun g => g.team == t.key && (match g.mon with | some m => m.obj == off | none => false)

/-- `live(g, D)` (R398). -/
def State.liveIn (s : State) (g : Group) (d : List Nat) : Bool :=
  match g.wait with
  | .barrier off _ =>
    match s.team? g.team with
    | none => true
    | some t => s.signalled t off || s.groups.any fun h => h.team == t.key && h.st != .ended && !d.contains h.key
  | .gbar n =>
    match s.unitOfGroup g with
    | none => true
    | some u =>
      s.groups.any fun h =>
        h.ctx == g.ctx && h.st != .ended && decide (h.gbarUse < n) && !d.contains h.key &&
          (match s.team? h.team with | some t => t.unit == u.key | none => false)
  | .empty _ => false
  | _ => true

/-- Passes of the walk until one removes no group. -/
def State.walkPass (s : State) : Nat → List Nat → List Nat
  | 0, d => d
  | n + 1, d =>
    let d' := d.filter fun k => match s.group? k with | some g => !s.liveIn g d | none => false
    if d'.length = d.length then d else State.walkPass s n d'

/-- What one walk finds (R398), each group with its entry and the counts of its object (R399). -/
def State.deadlocked (s : State) (ctx : Nat) : List (Nat × Wait × Nat) :=
  let d := ((s.groupsOf ctx).filter Group.hasEntry).map (·.key)
  (s.walkPass d.length d).filterMap fun k =>
    (s.group? k).map fun g =>
      (k, g.wait, match g.wait, s.team? g.team with
        | .barrier off _, some t =>
          let b := t.bar off
          b.phase.toNat + 2 ^ 32 * b.arr.toNat + 2 ^ 48 * b.bytes.toNat
        | _, _ => 0)

/-- DEADLOCK_WALK: a first walk is noted; the second, 100 µs later, reports the groups found by both with nothing changed
(R398, R399). -/
def execDeadlockWalk (ctx : Nat) (s : State) : Host.Outcome State Fault Refusal :=
  .next (match s.ctx? ctx with
    | none => s
    | some c =>
      if !c.running then s
      else
        let d := s.deadlocked ctx
        match c.walkSnap with
        | none => if d.isEmpty then s else s.modCtx ctx fun c => { c with walkSnap := some d }
        | some l =>
          (d.filter l.contains).foldl (fun (t : State) (x : Nat × Wait × Nat) => t.asyncFault x.1 { code := .deadlock })
            (s.modCtx ctx fun c => { c with walkSnap := none }))

/-! ### Pre-emption (R392 to R395) -/

/-- A drain whose teams have all completed ends the request (R392). -/
def State.drainedCheck (s : State) (ctx : Nat) : State :=
  match s.ctx? ctx with
  | none => s
  | some c =>
    match c.preempt with
    | .draining .. =>
      if (s.teamsOf ctx).isEmpty then
        (s.modCtx ctx fun c => { c with preempt := .none }).journal { event := .drained, ctx := ctx, tag := c.tag }
      else s
    | _ => s

/-- SAVE_REQUEST (R392): the request goes out, and monitors end with cause SAVE. Once what each party has begun is done, groups with
TMASK = 0 stop with CAUSE 2 and the others defer it. A debug halt on its way or in force stops them all (R420). -/
def execSaveRequest (ctx : Nat) (s : State) : Host.Outcome State Fault Refusal :=
  .next (match s.ctx? ctx with
    | none => s
    | some c =>
      match c.preempt with
      | .draining drain deadline =>
        let s1 := (s.groupsOf ctx).foldl (fun (t : State) (g : Group) => t.loseMonitor g.key 4)
          (s.modCtx ctx fun c =>
            { c with
              preempt := .saving drain deadline, overdue := false
              cut := if c.cut = some 3 then some 3 else if c.debugHalt then none else some 2 })
        s1.mapGroups fun g =>
          if g.ctx == ctx && g.tr.tmask && g.st != .ended && g.st != .stopped && g.st != .frozen then { g with tr := { g.tr with preq := true } }
          else g
      | .saving .. =>
        if c.cut = some 2 ∧ c.halt = .lowered ∧ !s.skids ctx then
          ((s.haltParties ctx 2 fun g => !g.tr.tmask).modCtx ctx fun c => { c with cut := none }).forwardFrom ctx c.stopSeq
        else s
      | _ => s)

/-- A group of a context that still runs and can be stopped where it stands. -/
def State.stoppable (s : State) (ctx : Nat) (g : Group) : Bool :=
  g.ctx == ctx && g.st != .stopped && g.st != .frozen && g.st != .ended && !s.groupSkids g.key

/-- The DEADLINE has passed: every group still running stops at its next boundary with CAUSE 5 (R392). -/
def State.overdueStop (s : State) (c : Ctx) : State :=
  (((s.groupsOf c.num).filter (s.stoppable c.num)).foldl
    (fun (t : State) (g : Group) =>
      (t.modGroup g.key fun g => { g with tr := { g.tr with preq := false } }).stopGroup g.key 5 0) s).forwardFrom c.num c.stopSeq

/-- No halt or save request is on its way to a context, and no fault is being contained. -/
def Ctx.calm (c : Ctx) : Bool := c.halt == .lowered && c.cut.isNone

/-- PREEMPT_DEADLINE (R392): every group still running stops with CAUSE 5, now or where it comes to a boundary. -/
def execPreemptDeadline (ctx : Nat) (s : State) : Host.Outcome State Fault Refusal :=
  .next (match s.ctx? ctx with
    | none => s
    | some c =>
      if c.isSaving then
        let s1 := s.modCtx ctx fun c => { c with overdue := true }
        if c.calm then s1.overdueStop c else s1
      else s)

/-- A party of a context has a transaction that no answer has come for. -/
def State.awaitsFabric (s : State) (ctx : Nat) : Bool :=
  let mine := fun (k : Nat) => s.groups.any fun g => g.ctx == ctx && g.key == k
  s.fab.any fun x => x.resp.isNone && (mine x.owner || (s.engs.any fun e => e.id == x.owner && e.ctx == ctx) ||
    (s.tops.any fun t => t.ctx == ctx && (t.id == x.owner || t.sideParty == x.owner)) ||
    s.subs.any fun b => b.party == x.owner && s.subCtx b == ctx)

/-- Every party of a context stands, and nothing of it is on its way (R141, R201, R351, R392). -/
def State.readyToSave (s : State) (ctx : Nat) : Bool :=
  (s.groupsOf ctx).all (fun g => (g.st == .stopped || g.st == .frozen || g.st == .ended) && g.rets.isEmpty && g.atoms.isEmpty) &&
    !(s.groves.any fun p => p.2.svcq.any (·.ctx == ctx)) && !(s.pend.any (·.ctx == ctx)) && !(s.coh.any (·.ctx == ctx)) &&
    !(s.shoots.any (·.ctx == ctx)) && !(s.skids ctx) && !(s.awaitsFabric ctx)

/-- A handover command of a context is in progress (R95). -/
def State.handoverBusy (s : State) (ctx : Nat) : Bool :=
  s.dev.ho.any fun p => p.2.code == 1 && (p.2.ctl.extractLsb' 48 16).toNat == ctx

/-- The transfers of a context that have not started translate their rows anew (R351). -/
def State.unstart (s : State) (ctx : Nat) : State :=
  { s with tops := s.tops.map fun (x : TileOp) => if x.ctx == ctx then { x with stale := true } else x }

/-- What a save keeps of a context (R395). A hold under R263 is not kept: its groups have all stopped or stay on the slot left. -/
def State.saveArea (s : State) (c : Ctx) (times : Nat × Nat) : SaveArea :=
  let gs := s.groupsOf c.num
  let mine := fun (k : Option Nat) => match k with | some x => gs.any (·.key == x) | none => false
  let ours := fun (p : Option Plane) => match p with | some x => (if x.ownerCtx == c.num then some x else none) | none => none
  { groups := gs.map fun (g : Group) => { g with held := [] }
    teams := s.teamsOf c.num
    engs := s.engs.filter (·.ctx == c.num)
    subs := s.subs.filter fun b => s.subCtx b == c.num
    tops := s.tops.filter (·.ctx == c.num)
    steps := (s.arrays.flatMap fun p => p.2.queue.map fun x => (p.1, x)).filter (·.2.ctx == c.num)
    banks := s.arrays.flatMap fun p =>
      (p.2.banks.filter fun b => mine b.2.owner ||
        (match b.2.heldFor with | some m => mine (SMap.get {} p.2.banks m).owner | none => false)).map fun b => (p.1, b.1, b.2)
    planes := s.arrays.flatMap fun p =>
      (p.2.planes.map fun q => (p.1, q.1, ({ front := ours q.2.front, shadow := ours q.2.shadow } : PlanePair))).filter fun x => x.2.2 != {}
    ptroot := c.gen ++ c.base ++ 0#12
    times := times }

/-- Frames that a save area takes, by the sizes of R395, which are upper bounds. -/
def SaveArea.frames (a : SaveArea) : Nat :=
  (4096 + 8256 + (a.teams.map fun t => 8192 + t.w).sum + 16384 * a.groups.length + 24576 * a.banks.length + 73728 * a.planes.length +
    65535) / 65536

/-- A context saved (R392, R395): monitors armed since end, the area is written into frames that become RESERVED (R18), GEN advances
with every pin ended (R31, R42), the context's cores, banks and plane pairs are released, and SAVED is journalled. With no room for the
area the save fails, and the context is reset (R394). -/
def State.saveCtx (s : State) (c : Ctx) (times : Nat × Nat) : State :=
  let ctx := c.num
  let s1 := ((s.groupsOf ctx).foldl (fun (t : State) (g : Group) => t.endMonitor g.key 4) s).markFrames c.savedFrames 0
  let area := s1.saveArea c times
  match s1.freeRun area.frames with
  | none => s1.forcedReset ctx
  | some f =>
    let frames := rangeFrom f area.frames
    let own := fun (k : Nat) => area.groups.any (·.key == k)
    let s2 := (s1.markFrames frames 3).shootAll ctx 0 (2 ^ 54)
    let s3 := (area.groups.foldl (fun (t : State) (g : Group) => t.releaseAll g.key) s2).dropPlanes ctx
    let s4 : State :=
      { s3 with
        engs := s3.engs.filter (·.ctx != ctx)
        subs := s3.subs.filter fun b => !area.teams.any (·.key == b.team)
        tops := s3.tops.filter (·.ctx != ctx)
        walks := s3.walks.filter (·.ctx != ctx)
        arrays := s3.arrays.map fun p => (p.1, { p.2 with queue := p.2.queue.filter (·.ctx != ctx) })
        cores := s3.cores.map fun p =>
          (p.1, { p.2 with current := p.2.current.filter fun q => match q.2 with | some k => !own k | none => true }) }
    let s5 := s4.mapGroups fun g => { g with held := g.held.filter (!own ·) }
    let s6 := area.teams.foldl (fun (t : State) (m : Team) => t.removeTeam m.key) s5
    (s6.modCtx ctx fun c =>
      { c with
        preempt := .saved, overdue := false, saved := some area, savedFrames := frames
        pmc := c.pmc.filter fun p => decide (512 * 256 ≤ p.1) }).journal { event := .saved, ctx := ctx, tag := c.tag }

/-- CONTEXT_SAVE (R95, R351, R392): past the DEADLINE the groups that still run stop; once every party stands, and no access of the
context or handover command in progress has to be waited for, the context is saved. -/
def execContextSave (ctx : Nat) (s : State) : Host.Outcome State Fault Refusal :=
  .next (match s.ctx? ctx with
    | none => s
    | some c =>
      match c.preempt with
      | .saving drain deadline =>
        if !c.calm then s
        else if c.overdue && (s.groupsOf ctx).any (s.stoppable ctx) then s.overdueStop c
        else
          let s0 := s.unstart ctx
          if s.readyToSave ctx && !s.handoverBusy ctx && s0.canShoot ctx then s0.saveCtx c (drain, deadline) else s
      | _ => s)

end Sys2Proof.Machine
end

