-- ==== Sys2Proof/Machine/Sched.lean ====
section
/-! DEFINITION. Placement, windows, and the completion of teams, records and tasks (R62 to R70, R241, R249, R254 to R279). -/

namespace Sys2Proof.Machine

/-! ### Units and their age -/

/-- The age of a unit: job, phase, graph and index (R256). -/
def UnitRec.age (u : UnitRec) : Nat × Nat × Nat × Nat := (u.job, u.phase, u.graph, u.idx)

/-- One age is older than or equal to another (R256). -/
def ageLe (a b : Nat × Nat × Nat × Nat) : Bool :=
  if a.1 ≠ b.1 then decide (a.1 ≤ b.1)
  else if a.2.1 ≠ b.2.1 then decide (a.2.1 ≤ b.2.1)
  else if a.2.2.1 ≠ b.2.2.1 then decide (a.2.2.1 ≤ b.2.2.1)
  else decide (a.2.2.2 ≤ b.2.2.2)

/-- The energy estimate of a class (R276). -/
def classEnergy (c : Nat) : Nat := [25, 50, 100, 150, 200, 300, 400, 600].getD c 600

/-- The smallest class that covers a mean (R278). -/
def classOf (mean : Nat) : Nat := ((List.range 8).find? fun c => decide (mean ≤ classEnergy c)).getD 7

/-- The window of a team placed at a carve level (R67, R264). -/
def LaunchDef.window (d : LaunchDef) (level : Nat) : Nat :=
  if d.coop then d.spmin * 1024 else 1024 * (d.spmin + (d.spmax - d.spmin) * level / 4)

/-- The unit may be placed: its phase has begun and it holds a slot, and nothing holds its context back (R249, R392, R496). -/
def Ctx.mayPlace (c : Ctx) (u : UnitRec) : Bool :=
  u.slot.isSome && u.complete.isNone && !u.cancelled && c.preempt == .none && c.halt == .lowered && !c.debugHalt && c.cut.isNone &&
    (match c.job? u.job with | some j => j.phase == u.phase | none => false)

/-! ### Candidates (R259) -/

/-- What a candidate places. -/
inductive CandKind where
  | team (j : Nat)
  | gang
  /-- the next participating team of a card -/
  | part
  | task (i : Nat)
  deriving DecidableEq, Repr

/-- A candidate for placement. -/
structure Cand where
  ctx : Nat
  unit : Nat
  prio : Nat
  age : Nat × Nat × Nat × Nat
  groups : Nat
  kind : CandKind
  deriving DecidableEq, Repr

/-- The candidate of a unit. -/
def State.candOf (s : State) (c : Ctx) (u : UnitRec) : Option Cand :=
  if !c.mayPlace u then none
  else
    let mk := fun (p n : Nat) (k : CandKind) => ({ ctx := c.num, unit := u.key, prio := p, age := u.age, groups := n, kind := k } : Cand)
    match u.def_.kind with
    | 2 =>
      match u.readyQ with
      | i :: _ =>
        if u.started then
          match s.tcbRead c u i with
          | some x => some (mk (bitsN x 336 2) (bitsN x 338 3 + 1) (.task i))
          | none => some (mk 0 1 (.task i))
        else none
      | [] => none
    | 1 =>
      if c.eligible u 0 && (!u.replace.isEmpty || (decide (u.participants < u.def_.teams) && decide (u.cursor < u.def_.nrec))) then
        some (mk u.def_.prio u.def_.groups .part)
      else none
    | _ =>
      if u.def_.coop then
        let todo := (List.range u.def_.teams).filter (s.unplaced u)
        if !u.ganged && !todo.isEmpty && todo.all (c.eligible u) then some (mk u.def_.prio u.def_.groups .gang) else none
      else
        ((List.range u.def_.teams).find? fun j => s.unplaced u j && c.eligible u j).map fun j =>
          mk u.def_.prio u.def_.groups (.team j)

/-- Every candidate, highest priority first and oldest first within one (R279); none of a context whose tables a handover has changed,
until it ends (assumption log 85). -/
def State.cands (s : State) : List Cand :=
  orderBy ((s.allCtxs.filter fun c => !s.hwHeld c.num).flatMap fun c => c.units.filterMap (s.candOf c)) fun a b =>
    decide (b.prio < a.prio) || (decide (a.prio = b.prio) && ageLe a.age b.age)

/-! ### Cores -/

/-- A core of an enabled grove (R260, R277). -/
def State.coreOn (s : State) (core : Nat) : Bool := SMap.get 34 (s.die (dieOf core)).groves (groveOf core % 32) != 34

/-- The enabled cores of a context's partition (R432). -/
def State.partCores (s : State) (c : Ctx) : List Nat := (List.range 512).filter fun k => s.coreOn k && c.inPart (groveOf k)

/-- A unit's team of `n` groups fits a core (R67, R260). -/
def State.unitFits (s : State) (u : UnitRec) (n core : Nat) : Bool :=
  s.fits core n u.def_.vregs u.def_.sregs (u.def_.window (s.core core).level)

/-- The fitting core with the most free group positions, the lowest-numbered on a tie (R260). -/
def State.bestCore (s : State) (l : List Nat) : Option Nat :=
  l.foldl (fun (b : Option Nat) (k : Nat) => match b with
    | none => some k
    | some m => if s.freePlaces m < s.freePlaces k then some k else some m) none

/-! ### Placing -/

/-- The slot that holds the fewest groups of a core, the lowest-numbered on a tie (R261). -/
def State.slotFor (s : State) (core : Nat) : Nat :=
  let n := fun (q : Nat) => ((s.groupsOn core).filter (·.slot == q)).length
  (List.range 4).foldl (fun (b q : Nat) => if n q < n b then q else b) 0

/-- A group in the state of R241. -/
def startGroup (u : UnitRec) (t : Team) (key grp slot age : Nat) (priv : Bool) (entry : DWord) (args : List Word) : Group :=
  { live := true, key := key, ctx := t.ctx, team := t.key, lslot := t.lslot, teamIdx := t.idx, grp := BitVec.ofNat 5 grp
    core := t.core, slot := slot, age := age, priv := priv, vregs := u.def_.vregs, sregs := u.def_.sregs
    wdLimit := u.def_.wdLimit, coop := u.def_.coop, st := .loading, pc := entry, fmts := u.def_.fmts
    s := (args.zip (List.range 8)).foldl (fun (m : SMap Word) (p : Word × Nat) => SMap.set 0 m p.2 p.1) []
    trc := { on := u.def_.trace, startDue := u.def_.trace } }

/-- The groups of a team put on its core, in ascending index (R261, R262). -/
def State.addGroups (s : State) (u : UnitRec) (t : Team) (priv : Bool) (entry : DWord) (args : List Word) (n : Nat) : State :=
  (List.range n).foldl
    (fun (v : State) (i : Nat) =>
      let q := v.slotFor t.core
      { v with others := v.others ++ [startGroup u t v.fresh i q (v.youngest t.core q) priv entry args], fresh := v.fresh + 1 }) s

/-- The `.fmt` values of the code object at an entry PC of a context (R133, R146; assumption log 53). -/
def State.fmtsAt (s : State) (ctx : Nat) (entry : DWord) : SMap Word :=
  match s.dev.kernels.find? fun k => k.1 == ctx && k.2.1 == entry with
  | some k => k.2.2
  | none => []

/-- A team placed on a core: its window is found, lending ends, and its groups load (R63, R70, R241, R261). -/
def State.placeTeam (s : State) (c : Ctx) (u : UnitRec) (core j n : Nat) (entry : DWord) (args : List Word)
    (chunk : Option (Nat × Nat)) : State :=
  let w := u.def_.window (s.core core).level
  let job := c.job? u.job
  let t : Team :=
    { live := true, key := s.fresh, ctx := c.num, unit := u.key, lslot := u.slot.getD 0, idx := BitVec.ofNat 20 j, size := n
      count := if u.def_.kind = 0 then u.def_.teams else 1, graph := BitVec.ofNat 16 u.graph, phase := BitVec.ofNat 16 u.phase
      core := core, w := w, pos := (s.windowPos core w).getD localStore, chunk := chunk }
  let s1 : State := { s with teams := s.teams ++ [t], fresh := s.fresh + 1 }
  (s1.modCore core fun x => { x with lend := false }).addGroups u t (match job with | some j => j.priv | none => false) entry args n

/-- The eight words of a record of a card (R266). -/
def State.recordArgs (s : State) (c : Ctx) (u : UnitRec) (r : Nat) : Option (List Word) :=
  (s.hwRead c (u.def_.recBase.toNat + 32 * r) 32).map fun bs =>
    (List.range 8).map fun i => BitVec.ofNat 32 (natOfBytes ((bs.drop (4 * i)).take 4))

/-- CHUNK_CLAIM: a claim of records from a card's cursor (R267). -/
def UnitRec.claim (u : UnitRec) : Option ((Nat × Nat) × UnitRec) :=
  let r := u.def_.nrec - u.cursor
  if r = 0 then none
  else
    let n := min r (max u.def_.minChunk ((r + 2 * u.def_.teams - 1) / (2 * u.def_.teams)))
    some ((u.cursor, u.cursor + n), { u with cursor := u.cursor + n })

/-- The next record a participating team runs: of its chunk, or of a new claim. A record that a cancel has reached ends
CANCELLED (R293); one whose words cannot be read ends FAILED. -/
def State.nextRecord (ctx k : Nat) : Nat → Option (Nat × Nat) → State → State × Option (Nat × List Word × (Nat × Nat))
  | 0, _, s => (s, none)
  | fuel + 1, chunk, s =>
    match (s.ctx? ctx).bind fun c => (c.unit? k).map fun u => (c, u) with
    | none => (s, none)
    | some (c, u) =>
      match chunk with
      | some (a, b) =>
        if a < b then
          if u.cancelRecs.contains a then
            State.nextRecord ctx k fuel (some (a + 1, b)) (s.endMember ctx k a .cancelled)
          else
            match s.recordArgs c u a with
            | some l => (s, some (a, l, (a + 1, b)))
            | none => State.nextRecord ctx k fuel (some (a + 1, b)) (s.endMember ctx k a .failed)
        else
          match u.claim with
          | none => (s, none)
          | some (q, u') => State.nextRecord ctx k fuel (some q) (s.modUnit ctx k fun _ => u')
      | none =>
        match u.claim with
        | none => (s, none)
        | some (q, u') => State.nextRecord ctx k fuel (some q) (s.modUnit ctx k fun _ => u')

/-- More steps than `nextRecord` can take. -/
def recordFuel (u : UnitRec) : Nat := 2 * u.def_.nrec + 4

/-- A candidate placed on a core. -/
def State.placeCand (s : State) (c : Ctx) (u : UnitRec) (x : Cand) (core : Nat) : State :=
  match x.kind with
  | .team j => s.placeTeam c u core j x.groups u.def_.entry u.def_.args none
  | .part =>
    let s1 := s.modUnit c.num u.key fun u => { u with participants := u.participants + 1, replace := u.replace.drop 1 }
    match State.nextRecord c.num u.key (recordFuel u) u.replace.head? s1 with
    | (s2, none) => s2.modUnit c.num u.key fun u => { u with participants := u.participants - 1 }
    | (s2, some (j, l, q)) => s2.placeTeam c u core j x.groups u.def_.entry l (some q)
  | .task i =>
    match s.tcbRead c u i with
    | none => s.poolFail c.num u.key
    | some w =>
      match s.tcbStatusWrite c u i w 3 with
      | none => s.poolFail c.num u.key
      | some s1 =>
        let entry : DWord := BitVec.ofNat 64 (bitsN w 0 64)
        (s1.modUnit c.num u.key fun u => { u with readyQ := u.readyQ.erase i }).placeTeam c
          { u with def_ := { u.def_ with fmts := s.fmtsAt c.num entry } } core i x.groups entry ((List.range 8).map fun k => BitVec.ofNat 32 (bitsN w (64 + 32 * k) 32)) none
  | .gang => s

/-- The island of a core in the numbering of R447. -/
def State.islandNo (s : State) (core : Nat) : Nat :=
  let phys := SMap.get 34 (s.die (dieOf core)).groves (groveOf core % 32)
  8 * dieOf core + (if phys < 24 then phys / 6 else if phys < 29 then 4 else 5)

/-- A placement's energy taken from the headroom of the core's island (R279). -/
def State.spend (s : State) (u : UnitRec) (core : Nat) : State :=
  s.modIsland (s.islandNo core) fun i => { i with h := i.h - classEnergy u.eclassNow }

/-- A gang put on the best of the cores open to it, all of it or nothing (R265). -/
def State.placeGang (s : State) (c : Ctx) (u : UnitRec) (n : Nat) (cores : List Nat) : Option State :=
  (((List.range u.def_.teams).filter (s.unplaced u)).foldl
    (fun (o : Option State) (j : Nat) =>
      o.bind fun t => (t.bestCore (cores.filter (t.unitFits u n))).map fun k =>
        (t.placeTeam c u k j n u.def_.entry u.def_.args none).spend u k) (some s)).map fun t =>
    t.modUnit c.num u.key fun u => { u with ganged := true }

/-! ### The decision (R259, R265, R279) -/

/-- A candidate with its unit, its context, the cores open to it, and those of a die that fit it. -/
structure Choice where
  cand : Cand
  ctx : Ctx
  unit : UnitRec
  opens : List Nat
  cores : List Nat
  deriving DecidableEq, Repr

/-- The candidates with their contexts and units. -/
def State.candUnits (s : State) : List (Cand × Ctx × UnitRec) :=
  s.cands.filterMap fun x => (s.ctx? x.ctx).bind fun c => (c.unit? x.unit).map fun u => (x, c, u)

/-- A waiting gang keeps a core of its partition from work of equal or lower priority; of two gangs of one priority the older one
comes first (R265). -/
def keptFrom (x : Cand) (k : Nat) (z : Cand × Ctx × UnitRec) : Bool :=
  z.1.kind == .gang && z.1.unit != x.unit && z.2.1.inPart (groveOf k) &&
    (decide (x.prio < z.1.prio) || (decide (x.prio = z.1.prio) && (x.kind != .gang || !ageLe x.age z.1.age)))

/-- The candidates that have a fitting core on a die, on cores that no waiting gang keeps from them (R265). -/
def State.choices (s : State) (die : Nat) : List Choice :=
  let all := s.candUnits
  all.filterMap fun y =>
    let (x, c, u) := y
    let opens := (s.partCores c).filter fun k => !all.any (keptFrom x k)
    let here := opens.filter fun k => dieOf k == die && s.unitFits u x.groups k
    let ok : Bool := match x.kind with | .gang => (s.placeGang c u x.groups opens).isSome | _ => true
    if here.isEmpty || !ok then none else some { cand := x, ctx := c, unit := u, opens := opens, cores := here }

/-- The island of largest headroom among some cores, the lowest-numbered on a tie. -/
def State.richest (s : State) (l : List Nat) : Option Nat :=
  (l.map s.islandNo).foldl (fun (b : Option Nat) (i : Nat) => match b with
    | none => some i
    | some m => if (s.island m).h < (s.island i).h ∨ ((s.island m).h = (s.island i).h ∧ i < m) then some i else some m) none

/-- An island's frequency step lowered by one, at most once between reads and not below step 6 (R279). -/
def State.lowerIsland (s : State) (i : Nat) : State :=
  s.modIsland i fun x => if x.lowered || 6 ≤ x.step then x else { x with step := x.step + 1, lowered := true, since := 0 }

/-- A choice placed in an island. -/
def State.placeIn (s : State) (x : Choice) (island : Nat) : State :=
  match x.cand.kind with
  | .gang => (s.placeGang x.ctx x.unit x.cand.groups x.opens).getD s
  | _ =>
    match s.bestCore (x.cores.filter fun k => s.islandNo k == island) with
    | none => s
    | some k => (s.placeCand x.ctx x.unit x.cand k).spend x.unit k

/-- What a distributor decides: its highest level with a fitting core; there the oldest candidate that some island's
headroom covers, else the oldest one and a lowered step (R279). -/
def State.decide? (s : State) (die : Nat) : Option State :=
  match s.choices die with
  | [] => none
  | x :: t =>
    let level := (x :: t).filter fun y => y.cand.prio == x.cand.prio
    let cost := fun (y : Choice) => (classEnergy y.unit.eclassNow : Int)
    let covered := fun (y : Choice) => y.cores.filter fun k => decide (cost y ≤ (s.island (s.islandNo k)).h)
    match level.find? fun y => !(covered y).isEmpty with
    | some y => (s.richest (covered y)).map fun i => s.placeIn y i
    | none => (s.richest x.cores).map fun i => (s.placeIn x i).lowerIsland i

/-- The number of the team, record or TCB that a candidate places; a gang counts as its first team. -/
def Cand.member (x : Cand) (u : UnitRec) : Nat :=
  match x.kind with
  | .team j => j
  | .task i => i
  | .part => u.participants
  | .gang => 0

/-- The deferrals of a die still to be counted (R67): each waiting candidate that its window alone keeps from every core of the die,
with the lowest-numbered core that it would else fit. -/
def State.deferrals (s : State) (die : Nat) : List (Cand × Ctx × Nat) :=
  s.candUnits.filterMap fun y =>
    let (x, c, u) := y
    let here := (s.partCores c).filter fun k => dieOf k == die
    if u.deferred.contains (die, x.member u) || here.any (s.unitFits u x.groups) then none
    else (here.find? fun k => s.fits k x.groups u.def_.vregs u.def_.sregs 0).map fun k => (x, c, k)

/-- The deferrals of a die counted, once for each waiting team (R67; assumption log 49). -/
def State.countDeferrals (s : State) (die : Nat) : State :=
  (s.deferrals die).foldl
    (fun (t : State) (d : Cand × Ctx × Nat) =>
      ((t.modCore d.2.2 fun x => { x with defer := x.defer + 1 }).pmcCtx d.2.1.num d.2.2 0x2D 1).modUnit d.2.1.num d.1.unit fun u =>
        { u with deferred := u.deferred ++ [(die, d.1.member u)] }) s

/-- PLACEMENT_DECISION (R259, R260, R265, R267, R279): the choice is placed; teams that only their windows keep waiting count
deferrals (R67). -/
def execPlacementDecision (die : Nat) (s : State) : Host.Outcome State Fault Refusal :=
  let s0 := s.countDeferrals die
  .next (match s0.decide? die with
    | some t => (t.allCtxs.map (·.num)).foldl (fun (v : State) (n : Nat) => v.settle n) t
    | none => s0)

/-! ### The window made ready (R64, R65, R70) -/

/-- The ways of a team's core that are still to drain before its window is ready: how many. -/
def State.waysToDrain (s : State) (t : Team) : Nat :=
  max (if (s.core t.core).lend then 0 else 2) (if t.w = 0 then 0 else waysFrom t.pos) - (s.core t.core).spways

/-- Some group of the team is still loading. -/
def State.teamLoading (s : State) (t : Team) : Bool :=
  s.groups.any fun g => g.team == t.key && (g.st == .loading || ((g.st == .frozen || g.st == .stopped) && g.stLeft == .loading))

/-- The highest way of a core's L1 slice drained: its lines are written back and dropped, and the way joins the scratchpad (R64). -/
def State.drainWay (s : State) (core : Nat) : State :=
  let gr := groveOf core
  let way := (s.core core).l1Ways - 1
  let lines := ((s.grove gr).lru.filter fun x => x.way == way && sliceCore gr x.line == core).map (·.line)
  let s1 := lines.foldl (fun (t : State) (x : Nat) => t.evictL1 gr x) s
  s1.modCore core fun c => { c with spways := c.spways + 1 }

/-- LOCAL_STORE_DRAIN: the next way of the core of a loading team (R64, R70). -/
def execLocalStoreDrain (team : Nat) (s : State) : Host.Outcome State Fault Refusal :=
  .next (match s.team? team with
    | some t => if !t.zeroed && s.waysToDrain t != 0 then s.drainWay t.core else s
    | none => s)

/-- A loading group goes on, at once or when what holds it lets go: READY at a first placement, and after a restore the state in
which it was saved (R245, R396). -/
def Group.loaded (g : Group) : Group :=
  if g.st = .loading then { g with st := g.back }
  else if (g.st = .frozen ∨ g.st = .stopped) ∧ g.stLeft = .loading then { g with stLeft := g.back }
  else g

/-- WINDOW_ZERO_FILL: the window is filled, with zero bytes or, at a restore, with what was saved, and the team's groups go on (R65,
R245). -/
def execWindowZeroFill (team : Nat) (s : State) : Host.Outcome State Fault Refusal :=
  .next (match s.team? team with
    | some t =>
      if !t.zeroed && s.waysToDrain t == 0 then
        let on := (s.groups.filter fun g => g.team == team && g.st == .loading && t.loadBack).map (·.key)
        let s1 := (s.modTeam team fun t => { t with win := if t.loadBack then t.win else [], zeroed := true, loadBack := false }).mapGroups
          fun g => if g.team == team then g.loaded else g
        on.foldl (fun (v : State) (k : Nat) => v.withFocus k State.traceResume) s1
      else s
    | none => s)

/-- LENDING_ENTER: a core with no resident team goes into lending mode; every scratchpad way returns to its L1 slice (R69). -/
def execLendingEnter (core : Nat) (s : State) : Host.Outcome State Fault Refusal :=
  .next (if (s.teamsOn core).isEmpty then s.modCore core fun c => { c with lend := true, spways := 0 } else s)

/-- CARVE_UPDATE (R68): in service only. -/
def execCarveUpdate (core : Nat) (s : State) : Host.Outcome State Fault Refusal :=
  .next (s.modCore core fun c =>
    if c.lend then c
    else
      let level :=
        if 0 < c.defer ∨ 4096 ≤ 8 * c.shadowHits then c.level - 1
        else if 8 * c.lastwayHits < 1024 then min (c.level + 1) 4
        else c.level
      { c with level := level, shadowHits := 0, lastwayHits := 0, defer := 0 })

/-- A supply of an island in mV lies from 450 to 750 (R3, R447). -/
def supply (w : Word) : Word := if w.toNat < 450 then 450 else if 750 < w.toNat then 750 else w

/-- The meters of an island as they stand when its headroom is read (R447; assumption log 19). -/
def State.metered (s : State) (n : Nat) (i : Island) : Island :=
  { i with
    volt := supply (Config.islandMeter n 0 s.steps), cur := Config.islandMeter n 1 s.steps
    energy := i.energy + (Config.islandMeter n 3 s.steps).zeroExtend 64 }

/-- HEADROOM_READ (R279): each grove island's headroom from its budget and the energy used in the last 100 µs, which the
outside supplies; an island with a quarter of its budget free and not lowered for 100 µs, at the eleventh read after that, rises
a step. -/
def execHeadroomRead (die : Nat) (used : List Nat) (s : State) : Host.Outcome State Fault Refusal :=
  .next ((List.range 8).foldl
    (fun (t : State) (q : Nat) =>
      let n := 8 * (die % 4) + q
      t.modIsland n fun x =>
        let i := s.metered n x
        if 6 ≤ q then i
        else
          let h : Int := (i.budget.toNat : Int) - (used.getD q 0 : Nat)
          let since := min 11 (i.since + 1)
          { i with
            h := h, lowered := false, since := since
            step := if 11 ≤ since ∧ (i.budget.toNat : Int) ≤ 4 * h ∧ !t.dev.throttle ∧ !i.hot then i.step - 1 else i.step }) s)

/-- ECLASS_REFINE (R278): once, after 64 teams, records or tasks have completed; `mean` is their measured mean energy. -/
def execEclassRefine (ctx unit mean : Nat) (s : State) : Host.Outcome State Fault Refusal :=
  .next (s.modUnit ctx unit fun u =>
    if !u.refined && decide (64 ≤ u.ended.length) then { u with eclassNow := classOf mean, refined := true } else u)

/-! ### Completion (R249, R267, R268, R271, R273) -/

/-- The status of a team (R251). -/
def State.teamStatus (s : State) (k : Nat) : UStatus :=
  (s.groups.filter (·.team == k)).foldl (fun (st : UStatus) (g : Group) => st.max (g.status.getD .done)) .done

/-- A participating team's next record: its groups start anew on their slots as its youngest, its window stays (R267). -/
def State.restartTeam (s : State) (u : UnitRec) (k j : Nat) (args : List Word) (q : Nat × Nat) : State :=
  let s1 := s.modTeam k fun t => { t with idx := BitVec.ofNat 20 j, chunk := some q }
  match s1.team? k with
  | none => s1
  | some t =>
    (s1.groups.filter (·.team == k)).foldl
      (fun (v : State) (g : Group) =>
        let age := v.youngest g.core g.slot
        { (v.modGroup g.key fun g =>
            { startGroup u t v.fresh g.grp.toNat g.slot age g.priv u.def_.entry args with st := .ready }) with fresh := v.fresh + 1 }) s1

/-- A participating team whose record has ended while no further record may be placed leaves; what is left of its chunk is placed
again later (R392). -/
def State.parkTeam (s : State) (t : Team) : State :=
  let rest : List (Nat × Nat) := match t.chunk with | some (a, b) => (if a < b then [(a, b)] else []) | none => []
  (s.removeTeam t.key).modUnit t.ctx t.unit fun u => { u with replace := u.replace ++ rest, participants := u.participants - 1 }

/-- TEAM_COMPLETE (R249, R252, R273): the team's unit counts it, a participating team goes on with its next record, a task's
control block is written, and everything that follows is settled. -/
def execTeamComplete (team : Nat) (s : State) : Host.Outcome State Fault Refusal :=
  .next (match s.team? team with
    | none => s
    | some t =>
      if !s.teamDone t || s.hwHeld t.ctx then s
      else
        let st := s.teamStatus team
        let j := t.idx.toNat
        let held : Bool := match s.ctx? t.ctx with | some c => c.preempt != .none | none => true
        let s1 :=
          match s.unitOf t with
          | none => s.removeTeam team
          | some u =>
            match u.def_.kind with
            | 2 =>
              ((s.removeTeam team).modUnit t.ctx u.key fun u =>
                { u with ended := SMap.set none u.ended u.ended.length (some st) }).taskDone t.ctx u.key j st
            | 1 =>
              let v := s.endMember t.ctx u.key j st
              if u.cancelled then v.removeTeam team
              else if held then v.parkTeam t
              else
                match State.nextRecord t.ctx u.key (recordFuel u) t.chunk v with
                | (v1, none) => v1.removeTeam team
                | (v1, some (r, l, q)) => v1.restartTeam u team r l q
            | _ => (s.removeTeam team).endMember t.ctx u.key j st
        (s1.settle t.ctx).drainedCheck t.ctx)

/-- POOL_START (R271): every ARMED TCB with PEND = 0 becomes READY; the live count is the number of ARMED TCBs. A failed
access fails the pool (R499). -/
def State.poolStart (s : State) (ctx k : Nat) : State :=
  match (s.ctx? ctx).bind fun c => (c.unit? k).map fun u => (c, u) with
  | none => s
  | some (c, u) =>
    let tcbs := (List.range (u.def_.cap + 1)).map fun i => (i, s.tcbRead c u i)
    if tcbs.any (·.2.isNone) then s.poolFail ctx k
    else
      let armed := tcbs.filter fun p => match p.2 with | some x => tcbStatus x == 1 | none => false
      let s1 := s.modUnit ctx k fun u => { u with started := true, live := armed.length }
      armed.foldl
        (fun (t : State) (p : Nat × Option Nat) =>
          match (t.ctx? ctx).bind fun c => (c.unit? k).map fun u => (c, u) with
          | none => t
          | some (c, u) =>
            if u.err ≠ 0 then t
            else
              match t.tcbRead c u p.1 with
              | none => t.poolFail ctx k
              | some x =>
                if tcbStatus x == 1 && bitsN x 320 16 == 0 then
                  match t.tcbReady ctx c u p.1 x with
                  | none => t.poolFail ctx k
                  | some (v, l) => State.poolRun ctx k poolFuel l v
                else t) s1

/-- A pool may start. -/
def Ctx.poolStarts (c : Ctx) (u : UnitRec) : Bool :=
  u.def_.kind == 2 && !u.started && c.mayPlace u && c.eligible u 0

/-- POOL_START -/
def execPoolStart (ctx unit : Nat) (s : State) : Host.Outcome State Fault Refusal :=
  .next (match (s.ctx? ctx).bind fun c => (c.unit? unit).map fun u => (c, u) with
    | some (c, u) => if c.poolStarts u && !s.hwHeld ctx then (s.poolStart ctx unit).settle ctx else s
    | none => s)

end Sys2Proof.Machine
end

