-- ==== Sys2Proof/Machine/Jobs.lean ====
section
/-! DEFINITION. Submission entries and jobs: the queue, job and graph records, launch parameter blocks, batch cards, task
pools and their checks (R254 to R257, R264 to R269, R429 to R431, R433). -/

namespace Sys2Proof.Machine

/-! ### The submission queue (R429) -/

/-- A submission entry. -/
structure SqEntry where
  kind : Nat
  priv : Bool
  ctx : Nat
  tag : DWord
  args : List Nat
  /-- a reserved bit is set -/
  resv : Bool
  deriving DecidableEq, Repr

/-- An argument of an entry. -/
def SqEntry.arg (e : SqEntry) (i : Nat) : Nat := e.args.getD i 0

/-- An entry of the ring by index (R429). -/
def State.sqEntry (s : State) (i : Nat) : SqEntry :=
  let x := readNat s.mem (Config.hostBase + s.dev.sqbase.toNat + 64 * (i % s.dev.sqsize.toNat)) 64
  { kind := bitsN x 0 8, priv := bitsN x 8 1 == 1, ctx := bitsN x 32 16, tag := BitVec.ofNat 64 (bitsN x 192 64)
    args := (List.range 4).map fun k => bitsN x (256 + 64 * k) 64
    resv := bitsN x 9 23 != 0 || bitsN x 48 144 != 0 }

/-- The entry the heartwood core takes next: none before DEVSTAT reads READY or when the queue is empty. -/
def State.sqHead (s : State) : Option SqEntry :=
  if s.dev.devstat = 2 ∧ s.dev.sqhead ≠ s.dev.sqtail then some (s.sqEntry s.dev.sqhead.toNat) else none

/-- SQKICK: the new tail; one more than SQSIZE ahead of SQHEAD is ignored (R429). -/
def State.kickQueue (s : State) (tail : Word) : State :=
  if s.dev.sqsize.toNat < (tail - s.dev.sqhead).toNat then s else { s with dev := { s.dev with sqtail := tail } }

/-- SQKICK -/
def execSqkick (tail : BitVec 32) (s : State) : Host.Outcome State Fault Refusal := .next (s.kickQueue tail)

/-- The entry taken: SQHEAD passes it (R433). -/
def State.passHead (s : State) : State := { s with dev := { s.dev with sqhead := s.dev.sqhead + 1 } }

/-- The one ACCEPTED or REFUSED entry of a command (R433, R434). -/
def State.answer (s : State) (e : SqEntry) (err : JError) (job : Nat := 0) : State :=
  (s.journal { event := if err = .none then .accepted else .refused, ctx := e.ctx, error := err, obj := job * 2 ^ 32, tag := e.tag }).passHead

/-- The ARGs of a kind beyond those it uses are 0, its reserved bits too, and PRIV stands with JOB only (R429, R430). -/
def SqEntry.wellFormed (e : SqEntry) (used : Nat) : Bool :=
  !e.resv && (e.kind == 1 || !e.priv) && (e.args.drop used).all (· == 0)

/-- The step of a command of one kind: nothing unless it stands at the head of the queue. -/
def State.command (s : State) (kind used : Nat) (f : SqEntry → State) : Host.Outcome State Fault Refusal :=
  .next (match s.sqHead with
    | some e => if e.kind = kind then (if e.wellFormed used then f e else s.answer e .badEntry) else s
    | none => s)

/-! ### Launches, cards and pools -/

/-- WDLOG is legal, and the limit it stands for (R254). -/
def wdLegal (w : Nat) : Bool := w == 0 || (decide (10 ≤ w) && decide (w ≤ 30))

/-- The watchdog limit of WDLOG (R254). -/
def wdOf (w : Nat) : Nat := if w = 0 then 2 ^ 24 else 2 ^ w

/-- A launch parameter block (R254). -/
def launchOf (x : Nat) : LaunchDef :=
  { kind := 0, entry := BitVec.ofNat 64 (bitsN x 0 64), teams := bitsN x 64 20 + 1, groups := bitsN x 84 5 + 1
    vregs := bitsN x 96 7, sregs := bitsN x 104 7, spmin := bitsN x 112 9, spmax := bitsN x 128 9, coop := bitsN x 149 1 == 1
    idem := bitsN x 150 1 == 1, terminate := bitsN x 151 1 == 1, retry := bitsN x 152 3, eclass := bitsN x 155 3
    prio := bitsN x 158 2, wdLimit := wdOf (bitsN x 160 5), trace := bitsN x 165 1 == 1
    args := (List.range 8).map fun i => BitVec.ofNat 32 (bitsN x (256 + 32 * i) 32) }

/-- Reserved bits of a launch parameter block are 0. -/
def launchResv (x : Nat) : Bool :=
  [(89, 7), (103, 1), (111, 1), (121, 7), (137, 12), (166, 26), (192, 64)].all fun p => bitsN x p.1 p.2 == 0

/-- A batch card (R266). -/
def cardOf (x : Nat) : LaunchDef :=
  { kind := 1, entry := BitVec.ofNat 64 (bitsN x 0 64), recBase := BitVec.ofNat 64 (bitsN x 64 64), nrec := bitsN x 128 20 + 1
    minChunk := bitsN x 160 16, teams := bitsN x 176 8 + 1, groups := bitsN x 184 3 + 1, vregs := bitsN x 192 7
    sregs := bitsN x 200 7, spmin := bitsN x 208 9, spmax := bitsN x 217 9, prio := bitsN x 226 2, eclass := bitsN x 228 3
    terminate := bitsN x 231 1 == 1, retry := bitsN x 232 3, idem := bitsN x 235 1 == 1, wdLimit := wdOf (bitsN x 236 5)
    trace := bitsN x 241 1 == 1 }

/-- Reserved bits of a card are 0. -/
def cardResv (x : Nat) : Bool := [(148, 12), (187, 5), (199, 1), (207, 1), (242, 14)].all fun p => bitsN x p.1 p.2 == 0

/-- A task pool at a descriptor's address (R269). -/
def poolOf (x : Nat) (va : DWord) : LaunchDef :=
  { kind := 2, tcbBase := BitVec.ofNat 64 (bitsN x 0 64), fsBase := BitVec.ofNat 64 (bitsN x 64 64), cap := bitsN x 128 20
    vregs := bitsN x 192 7, sregs := bitsN x 200 7, spmin := bitsN x 208 9, spmax := bitsN x 217 9, eclass := bitsN x 228 3
    terminate := bitsN x 231 1 == 1, retry := bitsN x 232 3, idem := bitsN x 235 1 == 1, wdLimit := wdOf (bitsN x 236 5)
    trace := bitsN x 241 1 == 1, descVA := va }

/-- Reserved bits of a pool descriptor are 0. -/
def poolResv (x : Nat) : Bool := [(148, 12), (180, 12), (199, 1), (207, 1), (226, 2), (242, 14)].all fun p => bitsN x p.1 p.2 == 0

/-- An entry PC is legal: bits [63:56] and [1:0] are 0. -/
def entryLegal (e : DWord) : Bool := decide (e.toNat < 2 ^ 56) && e.toNat % 4 == 0

/-- Teams of a launch that one core with no other team fits with its smallest window (R260, R264). -/
def LaunchDef.perCore (d : LaunchDef) : Nat :=
  let n := min (32 / d.groups) (min (3072 / (d.groups * d.vregs)) (2048 / (d.groups * sregsTaken d.sregs)))
  if d.spmin = 0 then n else min n (384 / d.spmin)

/-- The fields that launches, cards and pools share lie in their ranges (R255). -/
def LaunchDef.fieldsOk (d : LaunchDef) (wd : Nat) : Bool :=
  wdLegal wd && decide (1 ≤ d.vregs) && decide (d.vregs ≤ 96) && decide (8 ≤ d.sregs) && decide (d.sregs ≤ 64) &&
    decide (d.spmin ≤ 384) && decide (d.spmin ≤ d.spmax) && decide (d.spmax ≤ 384) &&
    (d.terminate || d.idem) && (!d.terminate || d.retry == 0) && decide (1 ≤ d.perCore)

/-- The unit's own block is legal (R255, R266, R269). -/
def blockOk (d : LaunchDef) (x : Nat) (va : Nat) : Bool :=
  match d.kind with
  | 0 => launchResv x && d.fieldsOk (bitsN x 160 5) && entryLegal d.entry && va % 8 == 0
  | 1 => cardResv x && d.fieldsOk (bitsN x 236 5) && entryLegal d.entry && decide (1 ≤ d.minChunk) &&
      decide (d.recBase.toNat < 2 ^ 56) && d.recBase.toNat % 32 == 0 && va % 32 == 0
  | _ => poolResv x && d.fieldsOk (bitsN x 236 5) && d.fsBase.toNat % 4 == 0 && d.tcbBase.toNat % 64 == 0

/-! ### Records (R431) -/

/-- A dependence edge, and whether its reserved bits are 0 (R257). -/
def edgeOf (x : Nat) : Edge × Bool :=
  ({ prod := bitsN x 57 7, range := bitsN x 56 1 == 1, stride := bitsN x 32 16, width := bitsN x 20 12, offset := sextN x 20 },
    bitsN x 48 8 == 0)

/-- A slot of a graph record: the unit's block, its edges, and whether the block and the edges are legal in themselves. -/
structure SlotDef where
  def_ : LaunchDef
  edges : List Edge
  ok : Bool
  deriving DecidableEq, Repr

/-- A slot read; none where the record breaks R431 or cannot be read. -/
def State.readSlot (s : State) (c : Ctx) (va : Nat) : Option SlotDef :=
  match s.hwNat c va 80 with
  | none => none
  | some x =>
    let kind := bitsN x 64 2
    let n := bitsN x 66 4
    let edges := (List.range 8).map fun i => bitsN x (128 + 64 * i) 64
    let block := bitsN x 0 64
    if kind = 3 ∨ 8 < n ∨ bitsN x 70 26 ≠ 0 ∨ bitsN x 96 32 ≠ 0 ∨ (edges.drop n).any (· ≠ 0) then none
    else
      (s.hwNat c block (if kind = 0 then 64 else 32)).map fun b =>
        let d := if kind = 0 then launchOf b else if kind = 1 then cardOf b else poolOf b (BitVec.ofNat 64 block)
        let es := (edges.take n).map edgeOf
        { def_ := { d with fmts := s.fmtsAt c.num d.entry }, edges := es.map (·.1), ok := blockOk d b block && es.all (·.2) }

/-- Every element read, or none. -/
def allOf {α β : Type} (f : α → Option β) : List α → Option (List β)
  | [] => some []
  | a :: t =>
    match f a, allOf f t with
    | some b, some r => some (b :: r)
    | _, _ => none

/-- A count word of a record: from 1 to `hi`, with a word 0 after it. -/
def countWord (x hi : Nat) : Option Nat :=
  let n := x % 2 ^ 32
  if x / 2 ^ 32 = 0 ∧ 1 ≤ n ∧ n ≤ hi then some n else none

/-- A graph record read. -/
def State.readGraph (s : State) (c : Ctx) (va : Nat) : Option (List SlotDef) :=
  match (s.hwNat c va 8).bind (countWord · 128) with
  | none => none
  | some n => allOf (fun (i : Nat) => s.readSlot c (va + 8 + 80 * i)) (List.range n)

/-- A job record read: per phase, its graphs. -/
def State.readJob (s : State) (c : Ctx) (va : Nat) : Option (List (List (List SlotDef))) :=
  if va % 8 ≠ 0 then none
  else
    match (s.hwNat c va 8).bind (countWord · 256) with
    | none => none
    | some n =>
      allOf (fun (p : Nat) =>
        match s.hwNat c (va + 8 + 16 * p) 8, (s.hwNat c (va + 16 + 16 * p) 8).bind (countWord · 256) with
        | some list, some m =>
          allOf (fun (k : Nat) => (s.hwNat c (list + 8 * k) 8).bind (s.readGraph c)) (List.range m)
        | _, _ => none) (List.range n)

/-- An edge of unit `i` is legal among the units of its graph (R257). -/
def edgeOk (l : List SlotDef) (i : Nat) (d : SlotDef) (e : Edge) : Bool :=
  decide (e.prod < i) &&
    (!e.range || (e.width != 0 && d.def_.kind == 0 &&
      (match l[e.prod]? with | some p => p.def_.kind == 0 | none => false)))

/-- The error a unit is refused with at stage 3 (R255 to R257, R265, R266, R269). -/
def State.unitError (s : State) (c : Ctx) (l : List SlotDef) (i : Nat) (d : SlotDef) : JError :=
  if !d.ok || !d.edges.all (edgeOk l i d) then .launchBadField
  else if d.def_.coop && decide (d.def_.perCore * (s.partCores c).length < d.def_.teams) then .launchCoopCapacity
  else .none

/-- The units of a job, in age order, each with its error; a refused one is over at once and completes FAILED (R265); phases and graphs are numbered in order (R431). -/
def State.unitsOf (s : State) (c : Ctx) (job : Nat) (phases : List (List (List SlotDef))) : List (UnitRec × JError) :=
  let graphs := (phases.zip (List.range phases.length)).flatMap fun p => p.1.map fun g => (p.2, g)
  let slots := (graphs.zip (List.range graphs.length)).flatMap fun q =>
    (q.1.2.zip (List.range q.1.2.length)).map fun d => (q.1.1, q.2, d.2, d.1, q.1.2)
  (slots.zip (List.range slots.length)).map fun x =>
    let (phase, graph, idx, d, l) := x.1
    let err := s.unitError c l idx d
    ({ key := s.fresh + x.2, job := job, phase := phase, graph := graph, idx := idx, def_ := d.def_, edges := d.edges
       cancelled := err != .none, started := err != .none, status := if err = .none then .done else .failed
       eclassNow := d.def_.eclass }, err)

/-- JOB (R256, R431): the record is read, ACCEPTED or REFUSED is journalled, every unit refused at stage 3 is journalled and
counts as completed FAILED, and the first phase begins. Kinds that name no command are refused here too (R430). -/
def execJob (s : State) : Host.Outcome State Fault Refusal :=
  .next (match s.sqHead with
    | none => s
    | some e =>
      if e.kind = 0 ∨ 9 < e.kind ∨ (e.kind = 4 ∧ (e.arg 0 % 256 < 0x40 ∨ 0x49 < e.arg 0 % 256)) then s.answer e .badEntry
      else if e.kind ≠ 1 then s
      else if !e.wellFormed 1 then s.answer e .badEntry
      else if s.hwHeld e.ctx then s
      else
        match s.ctx? e.ctx with
        | none => s.answer e .badContext
        | some c =>
          match s.readJob c (e.arg 0) with
          | none => s.answer e .badRecord
          | some phases =>
            let seq := s.dev.jseq
            let units := s.unitsOf c seq phases
            let job : JobRec :=
              { seq := seq, tag := e.tag, priv := e.priv, phases := phases.length
                graphPhase := (phases.zip (List.range phases.length)).flatMap fun p => p.1.map fun _ => p.2 }
            let s1 := s.answer e .none seq
            let s2 := (units.filter (·.2 != .none)).foldl
              (fun (t : State) (u : UnitRec × JError) =>
                t.journal { event := .refused, ctx := e.ctx, error := u.2, status := 3, obj := seq * 2 ^ 32, tag := e.tag }) s1
            ({ s2 with fresh := s2.fresh + units.length }.modCtx e.ctx fun c =>
              { c with jobs := c.jobs ++ [job], units := c.units ++ units.map (fun (x : UnitRec × JError) => x.1) }).settle e.ctx)

end Sys2Proof.Machine
end

