-- ==== Sys2Proof/Machine/Pages.lean ====
section
/-! DEFINITION. Page instructions, `tlbinv` with the steps of a shootdown, and frame descriptors (R33 to R36, R41 to R48,
R99, R169 to R173, R498). -/

namespace Sys2Proof.Machine

/-! ### Free lists (R36) -/

/-- Head of a free list (R36). -/
def Ctx.head (c : Ctx) (k : Nat) : Word := SMap.get 0xFFFFFFFF c.flHead k
/-- Length of a free list (R36). -/
def Ctx.listLen (c : Ctx) (k : Nat) : Word := SMap.get 0 c.flCount k
/-- Head and length written. -/
def Ctx.setList (c : Ctx) (k : Nat) (head len : Word) : Ctx :=
  { c with flHead := SMap.set 0xFFFFFFFF c.flHead k head, flCount := SMap.set 0 c.flCount k len }

/-- A frame pushed on the free list of a context for its stack: LINK, STATE FREE (R35, R36). -/
def State.pushFrame (s : State) (ctx frame : Nat) : State :=
  match s.ctx? ctx with
  | none => s
  | some c =>
    let k := stackOf frame
    ((s.setFrameLink frame (c.head k).toNat).setFrameState frame 0).modCtx ctx fun c =>
      c.setList k (BitVec.ofNat 32 frame) (c.listLen k + 1)

/-- The head frame of list `k` popped: its STATE becomes MAPPED (R36). -/
def State.popFrame (s : State) (ctx k : Nat) : Option (Nat × State) :=
  match s.ctx? ctx with
  | none => none
  | some c =>
    if c.head k = 0xFFFFFFFF then none
    else
      let f := (c.head k).toNat
      some (f, (s.modCtx ctx fun c => c.setList k (BitVec.ofNat 32 (s.frameLink f)) (c.listLen k - 1)).setFrameState f 1)

/-- Every cached copy of a frame's lines dropped, with its pin (R31): L1, L2, directory and instruction caches. -/
def State.dropFrame (s : State) (frame : Nat) : State :=
  { s with
    groves := s.groves.map fun p =>
      (p.1, { p.2 with
        l1 := p.2.l1.filter fun x => x.1 / 32 / 512 != frame
        lru := p.2.lru.filter fun l => l.line / 512 != frame
        pins := p.2.pins.filter (·.1 != frame) })
    cores := s.cores.map fun p => (p.1, { p.2 with icache := p.2.icache.filter fun i => i.line / 512 != frame })
    fills := s.fills.filter fun f => f.line / 512 != frame
    dies := s.dies.map fun p =>
      (p.1, { p.2 with
        dir := p.2.dir.filter fun x => x.1 / 512 != frame
        l2 := p.2.l2.map fun x => (x.1, x.2.filter fun l => l.line / 512 != frame) }) }

/-- The words of a frame whose newest bytes stand in a cache alone, as word addresses / 4: dirty words of granted L1 lines and of L2
lines (R82, R56). -/
def State.dirtyIn (s : State) (frame : Nat) : List Nat :=
  let l1 := s.groves.flatMap fun p =>
    (p.2.l1.filter fun x => x.1 / 32 / 512 == frame && x.2.granted && x.2.dirty != 0).map (·.1)
  let l2 := s.dies.flatMap fun p => p.2.l2.flatMap fun x =>
    (x.2.filter fun l => l.line / 512 == frame).flatMap fun l => (lanesOf l.dirty).map fun i => l.line * 32 + i
  (l1 ++ l2).dedup

/-- Every cached copy of a frame's lines invalidated without write-back (R35). Dirty words are lost: the frame holds free values in
their place, since the model keeps no older bytes of them (assumption log 87). Stores that wait for a grant in the frame are lost
too. -/
def State.purgeFrame (s : State) (frame : Nat) : State :=
  let s1 := (s.dirtyIn frame).foldl
    (fun (t : State) (w : Nat) =>
      let (bs, t1) := t.freeBytes 4
      { t1 with mem := writeBytes t1.mem (4 * w) bs }) (s.dropFrame frame)
  let gone := s1.pend.filter fun p => p.pa / 65536 == frame
  let left := s1.pend.filter fun p => p.pa / 65536 != frame
  ((gone.filter fun p => !left.any fun q => q.g == p.g && q.insn == p.insn).map fun p => (p.g, p.insn)).dedup.foldl
    (fun (t : State) (x : Nat × Nat) => t.modGroup x.1 fun g => g.doneOp 1 x.2) { s1 with pend := left }

/-- A frame whose count reaches 0 is released: purged, FREE, pushed on the list of its owner (R35). -/
def State.releaseFrame (s : State) (frame : Nat) : State :=
  let s1 := (s.purgeFrame frame).setFrameState frame 0
  s1.pushFrame (s1.frameCtx frame) frame

/-! ### Page instructions -/

/-- Where a page instruction's walk ends (R169, R498). -/
inductive PageEnd where
  | raise (r : Raise)
  | noTable
  | large
  | hold (ea : Nat)
  /-- the level-3 entry at its address -/
  | entry (ea : Nat) (e : DWord)
  deriving DecidableEq, Repr

/-- The walk of a page instruction to level 3 (R169). A leaf in RELEASING or ACQUIRING is waited for (R99). -/
def State.pageWalk (s : State) (va : Nat) : PageEnd :=
  match walkTable (readD s.mem) s.cx va with
  | .bad level =>
    .raise { code := .pagePermission, va := BitVec.ofNat 64 va,
             xdet := xdetWord false s.dev.pkgid.toNat level rsnMalformed .maint 0 }
  | .absent ea level => if level = 3 then .entry ea (readD s.mem ea) else .noTable
  | .leaf ea level e => if pteHpend e then .hold ea else if level = 3 then .entry ea e else .large

/-- The status word (R169). -/
def pageStatus (count code : Nat) : Word := BitVec.ofNat 32 (count * 65536 + code)

/-- OK -/
def pgOk : Nat := 0
/-- NO_TABLE -/
def pgNoTable : Nat := 1
/-- LARGE_PAGE -/
def pgLarge : Nat := 2
/-- OCCUPIED -/
def pgOccupied : Nat := 3
/-- EMPTY_LIST -/
def pgEmptyList : Nat := 4
/-- COUNT_LIMIT -/
def pgCount : Nat := 5
/-- BAD_ARG -/
def pgBadArg : Nat := 6
/-- NOT_MAPPED -/
def pgNotMapped : Nat := 7
/-- HANDOVER -/
def pgHandover : Nat := 8
/-- HOST_FRAME -/
def pgHostFrame : Nat := 9

/-- What a page instruction comes to: a code raised, a wait, or a status word and its effect. -/
inductive PageRes where
  | raise (r : Raise)
  | wait (ea : Nat)
  | report (count code : Nat) (s : State)

/-- A page address in the local region with its low bits 0 (R169). -/
def pageArg (va : Nat) : Bool := decide (va < 2 ^ 54) && va % 65536 == 0

/-- A level-3 leaf is valid and no table lies in the way, or a code (R498). -/
def State.withEntry (s : State) (va : Nat) (f : Nat → DWord → PageRes) : PageRes :=
  match s.pageWalk va with
  | .raise r => .raise r
  | .hold ea => .wait ea
  | .noTable => .report 0 pgNoTable s
  | .large => .report 0 pgLarge s
  | .entry ea e => f ea e

/-- A leaf written by compare-and-swap at `.dev` (R25, R169): one step, so it never fails. -/
def State.writeLeaf (s : State) (ea : Nat) (e : DWord) : State := s.devWrite s.cx.num ea (bytesOfNat 8 e.toNat)

/-- `pgmap` (R170, R498). -/
def State.pgmapRes (s : State) (va : Nat) (t : Word) : PageRes :=
  let k := (t.extractLsb' 16 4).toNat
  if !pageArg va || t &&& 0xFFF0FE03 ≠ 0 || 11 < k then .report 0 pgBadArg s
  else
    s.withEntry va fun ea e =>
      if pteV e then .report 0 pgOccupied s
      else
        match s.popFrame s.cx.num k with
        | none => .report 0 pgEmptyList s
        | some (f, s1) =>
          let leaf := s.cx.gen ++ BitVec.ofNat 36 f ++ (t.extractLsb' 0 12 &&& 0x1FC ||| 3#12)
          .report 1 pgOk ((s1.setRefcnt f 1).writeLeaf ea leaf)

/-- `pgshare` (R171, R498). -/
def State.pgshareRes (s : State) (va : Nat) (b : DWord) : PageRes :=
  let dst := b.toNat / 65536 * 65536
  let cow := b.getLsbD 0
  if !pageArg va || !pageArg dst || b.extractLsb' 1 15 ≠ 0 then .report 0 pgBadArg s
  else
    s.withEntry va fun sea e =>
      if !pteV e then .report 0 pgNotMapped s
      else
        let f := pteFrame e
        let host := inHost (f * 65536)
        let cnt := if host then 0 else s.refcnt f
        if pteHown e then .report cnt pgHandover s
        else if host then .report 0 pgHostFrame s
        else
          match s.withEntry dst fun dea d => if pteV d then .report cnt pgOccupied s else .report dea 16 s with
          | .report dea 16 _ =>
            if cnt = 65535 then .report cnt pgCount s
            else
              let bits : DWord := 0x200 ||| (if cow then 0x100 else 0)
              let s1 := (s.setRefcnt f (cnt + 1)).writeLeaf dea (pteStamp (e ||| bits) s.cx.gen)
              .report (cnt + 1) pgOk (s1.writeLeaf sea (e ||| bits))
          | .report _ code _ => .report cnt code s
          | r => r

/-- `pgrel` (R172, R498). -/
def State.pgrelRes (s : State) (va : Nat) (b : Word) : PageRes :=
  let query := b.getLsbD 0
  if !pageArg va || b.extractLsb' 1 31 ≠ 0 then .report 0 pgBadArg s
  else
    s.withEntry va fun ea e =>
      if !pteV e then .report 0 pgNotMapped s
      else
        let f := pteFrame e
        if inHost (f * 65536) then .report 0 pgHostFrame s
        else
          let cnt := s.refcnt f
          if query then .report cnt pgOk s
          else if pteHown e then .report cnt pgHandover s
          else if cnt = 0 then .report 0 pgCount s
          else
            let s1 := (s.writeLeaf ea 0).setRefcnt f (cnt - 1)
            .report (cnt - 1) pgOk (if cnt = 1 then s1.releaseFrame f else s1)

/-- A page instruction: privileged, reported in s[d] (R169). -/
def State.pageOp (s : State) (d addr b : BitVec 7) (bCnt : Nat) (f : State → PageRes) : Host.Outcome State Fault Refusal :=
  let opds := operandCheck s.g [sOpd addr 4 false 2, sOpd b 2 false bCnt] [sOpd d 3] (raiseIf (!s.g.priv) (illegal 5))
  match firstCheck [opds, s.atomCheck] with
  | .ok =>
    match f s with
    | .raise r => s.issue (.raise r) id
    | .wait ea => s.issue (.wait .handover (.handover ea)) id
    | .report cnt code t => t.issue .ok fun s => s.modG fun g => g.setS d.toNat (pageStatus cnt code)
  | c => s.issue c id

/-- PGMAP (R170). -/
def execPgmap (d addr b : BitVec 7) (s : State) : Host.Outcome State Fault Refusal :=
  s.pageOp d addr b 1 fun s => s.pgmapRes (s.g.spair addr.toNat).toNat (s.g.sreg b.toNat)
/-- PGSHARE (R171). -/
def execPgshare (d addr b : BitVec 7) (s : State) : Host.Outcome State Fault Refusal :=
  s.pageOp d addr b 2 fun s => s.pgshareRes (s.g.spair addr.toNat).toNat (s.g.spair b.toNat)
/-- PGREL (R172). -/
def execPgrel (d addr b : BitVec 7) (s : State) : Host.Outcome State Fault Refusal :=
  s.pageOp d addr b 1 fun s => s.pgrelRes (s.g.spair addr.toNat).toNat (s.g.sreg b.toNat)

/-! ### Shootdown -/

/-- The range of a `tlbinv` (R173). -/
def tlbinvRange (start : Nat) (pages : Nat) : Nat × Nat :=
  if pages = 0 then (0, 2 ^ 54)
  else
    let lo := start / 65536 * 65536
    (lo, min (lo + 65536 * pages) (2 ^ 54))

/-- TLBINV: a release, then the range goes to the sequencer and the group waits for its completion (R43, R173). -/
def execTlbinv (addr b : BitVec 7) (s : State) : Host.Outcome State Fault Refusal :=
  let va := s.g.spair addr.toNat
  let opds := operandCheck s.g [sOpd addr 4 false 2, sOpd b 2] [] (raiseIf (!s.g.priv) (illegal 5))
  let region := raiseIf (decide (2 ^ 54 ≤ va.toNat))
    { code := .pagePermission, va := va, xdet := xdetWord false s.dev.pkgid.toNat 7 rsnNoncanon .maint 0 }
  match firstCheck [opds, region, s.atomCheck, s.orderCheck 3 true true] with
  | .ok =>
    let r := tlbinvRange va.toNat (s.g.sreg b.toNat).toNat
    let q : Shoot := { ctx := s.g.ctx, g := some s.g.key, lo := r.1, hi := r.2 }
    let s1 := { s with shoots := s.shoots ++ [q] }
    .next ((s1.modG fun g => { g with inProgress := true }).waitAt .acquire .resource)
  | c => s.issue c id

/-- SHOOTDOWN_ACCEPT (R43 step 2). -/
def execShootdownAccept (ctx : Nat) (s : State) : Host.Outcome State Fault Refusal := .next (s.shootAccept ctx)
/-- SHOOTDOWN_INVALIDATION (R43 step 3). -/
def execShootdownInvalidation (ctx target : Nat) (s : State) : Host.Outcome State Fault Refusal := .next (s.shootInv ctx target)
/-- SHOOTDOWN_ACK (R43 steps 4 to 6). -/
def execShootdownAck (ctx target : Nat) (s : State) : Host.Outcome State Fault Refusal := .next (s.shootAck ctx target)

end Sys2Proof.Machine
end

