-- ==== Sys2Proof/Machine/Commands.lean ====
section
/-! DEFINITION. Commands of the submission queue that act on contexts: PREEMPT, RESTORE, GRANT, RECLAIM, CREATE, TEARDOWN
and ATTEST (R36, R48, R392, R396, R430, R432, R438, R443, R497, R500). -/

namespace Sys2Proof.Machine

/-- A pre-emption of a context begins: PREEMPTING, and DRAINED at once where no team is resident (R392). -/
def State.preempt (s : State) (ctx drain deadline : Nat) (tag : DWord) (own : Bool) : State :=
  ((s.modCtx ctx fun c => { c with preempt := .draining drain deadline, tag := tag, hwOwn := own }).journal
    { event := .preempting, ctx := ctx, tag := tag }).drainedCheck ctx

/-- The times of a pre-emption are legal (R392). -/
def timesLegal (drain deadline : Nat) : Bool := decide (drain ≤ deadline) && decide (10 ≤ deadline) && decide (deadline ≤ 1000000)

/-- The priority of a context: the highest of its units that have not completed (R396). -/
def Ctx.prio (c : Ctx) : Nat := ((c.units.filter (·.complete.isNone)).map (·.def_.prio)).foldl max 0

/-- The context that the heartwood core pre-empts for work of higher priority: that of lowest priority with resident teams, while a
candidate of higher priority fits no core (R392; assumption log 38). -/
def State.victim (s : State) : Option Ctx :=
  let held := (s.allCtxs.filter fun c => c.preempt == .none && !(s.teamsOf c.num).isEmpty)
  match orderBy held fun a b => decide (a.prio ≤ b.prio) with
  | [] => none
  | c :: _ =>
    if s.candUnits.any fun y => decide (c.prio < y.1.prio) && y.1.ctx != c.num &&
        !((s.partCores y.2.1).any (s.unitFits y.2.2 y.1.groups)) then some c
    else none

/-- PREEMPT (R392): the command at the head of the queue is ACCEPTED, or refused as BUSY where the context is being pre-empted or
saved (assumption log 38). Where no such command stands there, the request is the heartwood core's own. -/
def execPreempt (s : State) : Host.Outcome State Fault Refusal :=
  if (match s.sqHead with | some e => e.kind == 2 | none => false) then
    s.command 2 2 fun e =>
      match s.ctx? e.ctx with
      | none => s.answer e .badContext
      | some c =>
        if !timesLegal (e.arg 0) (e.arg 1) then s.answer e .badTimes
        else if c.preempt ≠ .none then s.answer e .busy
        else (s.answer e .none).preempt e.ctx (e.arg 0) (e.arg 1) e.tag false
  else
    .next (match s.victim with
      | some c =>
        let deadline := min 1000000 (max 10 Config.ownDeadline)
        s.preempt c.num (min Config.ownDrain deadline) deadline 0 true
      | none => s)

/-! ### RESTORE (R396, R202, R351) -/

/-- The team of a saved group by key. -/
def SaveArea.teamOf (a : SaveArea) (k : Nat) : Option Nat := (a.groups.find? (·.key == k)).map (·.team)

/-- What a team's groups own in arrays: for each bank the grove of the owner's core and that of the bank, for each plane pair its
grove twice (R396). -/
def SaveArea.spans (a : SaveArea) : List (Nat × Nat × Nat) :=
  (a.banks.filterMap fun b => b.2.2.owner.bind fun k => (a.groups.find? (·.key == k)).map fun g => (g.team, groveOf g.core, b.1)) ++
    a.planes.flatMap fun p => ([p.2.2.front, p.2.2.shadow].filterMap id).filterMap fun x => (a.teamOf x.owner).map fun t => (t, p.1, p.1)

/-- A team whose groups own banks or planes (R396). -/
def SaveArea.anchored (a : SaveArea) (t : Team) : Bool := a.spans.any (·.1 == t.key)

/-- The groves that array sets take: those of owners, of what they own, and those between (R344, R396). -/
def SaveArea.groves (a : SaveArea) : List Nat :=
  orderBy (a.spans.flatMap fun x => rangeFrom x.2.1 (x.2.2 + 1 - x.2.1)).eraseDups fun x y => x ≤ y

/-- A chain joins a grove and the next (R344, R396). -/
def SaveArea.joined (a : SaveArea) (gr : Nat) : Bool := a.spans.any fun x => decide (x.2.1 ≤ gr) && decide (gr < x.2.2)

/-- The array sets of a save area, as runs of consecutive groves: first and length (R396). -/
def SaveArea.runs (a : SaveArea) : List (Nat × Nat) :=
  a.groves.foldl
    (fun (l : List (Nat × Nat)) (g : Nat) =>
      match l.getLast? with
      | some (r, n) => if r + n = g ∧ a.joined (g - 1) then l.dropLast ++ [(r, n + 1)] else l ++ [(g, 1)]
      | none => [(g, 1)]) []

/-- A grove's row and the partition have room for a chain that begins there (R344). -/
def Ctx.chainRoom (c : Ctx) (gr len : Nat) : Bool := decide (gr % 8 + len ≤ 8) && (rangeFrom gr len).all c.inPart

/-- A chained group finds room for its chain at the new grove, if it had room where it was saved (R351). -/
def Ctx.chainFits (c : Ctx) (g : Group) (gr : Nat) : Bool :=
  !c.chainRoom (groveOf g.core) (g.chain.toNat + 1) || c.chainRoom gr (g.chain.toNat + 1)

/-- A restored group: LOADING, or FROZEN, or STOPPED in a context that a debugger holds; it goes on in the state it left (R245, R394,
R396, R420). -/
def Group.seat (g : Group) (core : Nat) (halted : Bool) : Group :=
  if g.st = .ended then { g with core := core }
  else
    { g with
      core := core, back := if g.stLeft = .loading then g.back else g.stLeft.released, stLeft := .loading
      st := if g.st = .frozen then .frozen else if halted then .stopped else .loading }

/-- A team put back on a core, with its saved window and size, which is to be filled; its groups keep their slots (R262, R396). None
where it does not fit. -/
def State.seatTeam (s : State) (c : Ctx) (a : SaveArea) (t : Team) (core : Nat) : Option State :=
  let gs := a.groups.filter (·.team == t.key)
  let live := gs.filter fun g => g.st != .ended || t.chunk.isSome
  let vregs := match live with | g :: _ => g.vregs | [] => 0
  let sregs := match live with | g :: _ => g.sregs | [] => 0
  let slots := (List.range 4).all fun q =>
    decide (((s.groupsOn core).filter (·.slot == q)).length + (live.filter (·.slot == q)).length ≤ 8)
  if s.coreOn core && s.fits core live.length vregs sregs t.w && slots && live.all fun g => c.chainFits g (groveOf core) then
    let t1 := { t with core := core, pos := (s.windowPos core t.w).getD localStore, zeroed := false, loadBack := t.zeroed || t.loadBack }
    some ({ s with teams := s.teams ++ [t1], others := s.others ++ gs.map fun (g : Group) => g.seat core c.debugHalt }.modCore core fun c =>
      { c with lend := false })
  else none

/-- The restored groups of a context take their places in the age order of their slots: in their saved order, behind every group
resident there (R262). -/
def State.ageRestored (s : State) (a : SaveArea) : State :=
  let mine := a.groups.map (·.key)
  let s0 := s.mapGroups fun g => if mine.contains g.key then { g with age := 0 } else g
  (orderBy a.groups fun x y => x.age ≤ y.age).foldl
    (fun (t : State) (x : Group) => t.modGroup x.key fun g => { g with age := t.youngest g.core g.slot }) s0

/-- An array set put at a base grove: its banks and planes, and its teams at their core positions. -/
def State.seatRun (s : State) (c : Ctx) (a : SaveArea) (r : Nat × Nat) (base : Nat) : Option State :=
  let inRun := fun (g : Nat) => decide (r.1 ≤ g) && decide (g < r.1 + r.2)
  let place := fun (g : Nat) => base + (g - r.1)
  let banks := a.banks.filter fun b => inRun b.1
  let planes := a.planes.filter fun p => inRun p.1
  let ok := c.chainRoom base r.2 && ((rangeFrom base r.2).all fun g => s.coreOn (4 * g)) &&
    (banks.all fun b => let x := s.bank (place b.1) b.2.1; x.owner.isNone && x.heldFor.isNone) &&
    planes.all fun p => let x := SMap.get {} (s.array (place p.1)).planes p.2.1; x.front.isNone && x.shadow.isNone
  if !ok then none
  else
    let s1 := banks.foldl (fun (v : State) (b : Nat × Nat × Bank) => v.modBank (place b.1) b.2.1 fun _ => b.2.2) s
    let s2 := planes.foldl
      (fun (v : State) (p : Nat × Nat × PlanePair) => v.modArray (place p.1) fun u => { u with planes := SMap.set {} u.planes p.2.1 p.2.2 }) s1
    let s3 := (a.steps.filter fun x => inRun x.1).foldl
      (fun (v : State) (x : Nat × ArrayStep) => v.modArray (place x.1) fun u => { u with queue := u.queue ++ [x.2] }) s2
    (a.teams.filter fun t => a.anchored t && inRun (groveOf t.core)).foldl
      (fun (o : Option State) (t : Team) => o.bind fun v => v.seatTeam c a t (4 * place (groveOf t.core) + t.core % 4)) (some s3)

/-- Every array set placed, then every other team on a core that fits it (R396); none while resources are missing. -/
def State.seatAll (s : State) (c : Ctx) (a : SaveArea) : Option State :=
  let o1 := a.runs.foldl
    (fun (o : Option State) (r : Nat × Nat) => o.bind fun v => (List.range 128).findSome? fun b => v.seatRun c a r b) (some s)
  (a.teams.filter fun t => !(a.anchored t)).foldl
    (fun (o : Option State) (t : Team) => o.bind fun v => (v.partCores c).findSome? fun k => v.seatTeam c a t k) o1

/-- Engine requests, subscriptions and tile operations put back behind those of the cores they come to; each subscription is
bound to the stack of its next tile (R194, R201, R202). -/
def State.seatOps (s : State) (c : Ctx) (a : SaveArea) : State :=
  let coreOf := fun (t k : Nat) => match s.team? t with | some m => m.core | none => k
  { s with
    engs := s.engs ++ a.engs.map fun e => { e with core := coreOf e.team e.core, running := false }
    subs := s.subs ++ a.subs.map fun b =>
      match s.hwAddr c b.next.toNat (if b.store then .write else .read) with
      | some pa => { b with stack := pa / Config.stackSlot }
      | none => b
    tops := s.tops ++ a.tops.map fun x => { x with core := coreOf x.team x.core } }

/-- A candidate of a higher priority can be placed now. -/
def State.outranked (s : State) (prio : Nat) : Bool :=
  (List.range Config.dies).any fun die => (s.choices die).any fun y => decide (prio < y.cand.prio)

/-- A saved context restored where it fits, at its priority (R396): GEN advances, its save area's frames are free again, and each group goes on once
its window is filled. -/
def State.restoreCtx (s : State) (n : Nat) : Option State :=
  match s.ctx? n with
  | none => none
  | some c =>
    match c.saved with
    | some a =>
      if (c.preempt = .restoring ∨ (c.hwOwn = true ∧ c.preempt = .saved)) ∧ !s.outranked c.prio then
        (s.seatAll c a).bind fun t =>
          let t0 := (t.seatOps c a).ageRestored a
          if t0.canShoot n then
            some (((((t0.shootAll n 0 (2 ^ 54)).markFrames c.savedFrames 0).modCtx n fun c =>
              { c with preempt := .none, saved := none, savedFrames := [], hwOwn := false })).journal
                { event := .restored, ctx := n, tag := c.tag })
          else none
      else none
    | none => none

/-- The context of highest priority that waits for its restore and fits (R396). -/
def State.restorable (s : State) : Option State :=
  ((orderBy s.allCtxs fun a b => decide (b.prio ≤ a.prio)).map (·.num)).findSome? s.restoreCtx

/-- RESTORE: the command is accepted; the restore itself waits until the resources are free (R396). A context that holds no
saved state is refused with BAD_CONTEXT (assumption log 38). -/
def execRestore (s : State) : Host.Outcome State Fault Refusal :=
  match s.sqHead with
  | some e =>
    if e.kind = 3 then
      s.command 3 0 fun e =>
        match s.ctx? e.ctx with
        | none => s.answer e .badContext
        | some c =>
          if c.preempt ≠ .saved then s.answer e .badContext
          else
            let t := (s.answer e .none).modCtx e.ctx fun c => { c with preempt := .restoring, tag := e.tag }
            (t.restoreCtx e.ctx).getD t
    else .next (s.restorable.getD s)
  | none => .next (s.restorable.getD s)

/-! ### Frames (R36, R48, R497) -/

/-- A range of frames lies in the assigned HBM of R18. -/
def framesInHbm (f n : Nat) : Bool :=
  inHbm (f * 65536) && inHbm ((f + n - 1) * 65536) && stackOf f == stackOf (f + n - 1)

/-- A frame filled with zero bytes. -/
def State.zeroFrame (s : State) (f : Nat) : State :=
  { s.purgeFrame f with mem := s.mem.filter fun c => decide (c.1 / 65536 ≠ f) }

/-- GRANT (R36, R497). -/
def execGrant (s : State) : Host.Outcome State Fault Refusal :=
  s.command 5 2 fun e =>
    let (f, n) := (e.arg 0, e.arg 1)
    if (s.ctx? e.ctx).isNone then s.answer e .badContext
    else if n = 0 ∨ 2 ^ 36 ≤ f ∨ !framesInHbm f n then s.answer e .badEntry
    else if !(rangeFrom f n).all fun x => s.frameState x == 0 && s.frameCtx x == 0 then s.answer e .badEntry
    else
      ((rangeFrom f n).reverse.foldl
        (fun (t : State) (x : Nat) => ((t.zeroFrame x).setFrameCtx x e.ctx).pushFrame e.ctx x) s).answer e .none

/-- The frames of a free list, from its head. -/
def State.listFrames (s : State) : Nat → Nat → List Nat
  | 0, _ => []
  | n + 1, f => f :: State.listFrames s n (s.frameLink f)

/-- A free list without the frames of a range (R37). -/
def State.unlist (s : State) (ctx k : Nat) (p : Nat → Bool) : State :=
  match s.ctx? ctx with
  | none => s
  | some c =>
    let l := (s.listFrames (c.listLen k).toNat (c.head k).toNat).filter (!p ·)
    let s1 := (l.zip (l.drop 1 ++ [0xFFFFFFFF])).foldl (fun (t : State) (x : Nat × Nat) => t.setFrameLink x.1 x.2) s
    s1.modCtx ctx fun c => c.setList k (match l with | f :: _ => BitVec.ofNat 32 f | [] => 0xFFFFFFFF) (BitVec.ofNat 32 l.length)

/-- RECLAIM (R48, R497): it waits for the context's accesses that are on their way. -/
def execReclaim (s : State) : Host.Outcome State Fault Refusal :=
  s.command 6 2 fun e =>
    let (f, n) := (e.arg 0, e.arg 1)
    if (s.ctx? e.ctx).isNone then s.answer e .badContext
    else if n = 0 ∨ 2 ^ 36 ≤ f ∨ !framesInHbm f n then s.answer e .badEntry
    else if !(rangeFrom f n).all fun x => s.frameState x == 0 && s.frameCtx x == e.ctx then s.answer e .badEntry
    else
      if !s.canShoot e.ctx then s else
      let s1 := (s.shootAll e.ctx 0 (2 ^ 54)).unlist e.ctx (stackOf f) fun x => decide (f ≤ x) && decide (x < f + n)
      ((rangeFrom f n).foldl (fun (t : State) (x : Nat) => t.setFrameCtx x 0) s1).answer e .none

/-! ### CREATE and TEARDOWN (R432, R438, R500) -/

/-- Fabric reach and job tag are legal (R438). -/
def reachLegal (reach tag : Nat) : Bool :=
  reach &&& 0x6000E000 == 0 && reach / 2 ^ 32 == 0 && decide (bitsN reach 0 13 ≤ bitsN reach 16 13) && decide (tag < 65536)

/-- What the translation caches recorded of a context number is forgotten when the number is given out. -/
def State.forgetCtx (s : State) (n : Nat) : State :=
  { s with
    groves := s.groves.map fun p => (p.1, { p.2 with gens := SMap.set 0 p.2.gens n 0 })
    dies := s.dies.map fun p => (p.1, { p.2 with walkGens := SMap.set 0 p.2.walkGens n 0 })
    rootGens := s.rootGens.filter fun p => p.1 % 65536 != n }

/-- Frames of a context's stop-record ring and dump fallback area: 256 KiB and 4 KiB (R384, R423). -/
def areaFrames : Nat := 5

/-- The frame of a new context's level-0 table takes STATE TABLE where it is free, and the frames of its ring and fallback area become
RESERVED (R18, R19, R33; assumption log 13). -/
def State.claimFrames (s : State) (ctx table : Nat) : State :=
  let s1 := if s.frameFree table then (s.setFrameState table 2).setFrameCtx table ctx else s
  match s1.freeRun areaFrames with
  | some f => (s1.markFrames (rangeFrom f areaFrames) 3).modCtx ctx fun c => { c with area := some f }
  | none => s1

/-- CREATE (R432, R438, R500). -/
def execCreate (s : State) : Host.Outcome State Fault Refusal :=
  s.command 7 4 fun e =>
    let part := e.arg 3
    let c : Ctx :=
      { live := true, num := e.ctx, base := BitVec.ofNat 36 (e.arg 0 / 65536), reach := BitVec.ofNat 32 (e.arg 1)
        jobTag := BitVec.ofNat 16 (e.arg 2), partGroves := BitVec.ofNat 32 part, partDies := BitVec.ofNat 4 (part / 2 ^ 32)
        partAll := part == 0 }
    if e.ctx = 0 ∨ (s.ctx? e.ctx).isSome then s.answer e .badContext
    else if e.arg 0 % 65536 ≠ 0 ∨ !inHbm (e.arg 0) ∨ !reachLegal (e.arg 1) (e.arg 2) ∨ 2 ^ 36 ≤ part ∨ (s.partCores c).isEmpty then
      s.answer e .badEntry
    else
      let s1 := s.forgetCtx e.ctx
      ({ s1 with ctxs := s1.ctxs ++ [c] }.claimFrames e.ctx (e.arg 0 / 65536)).answer e .none

/-- The frames whose descriptor names a context. -/
def State.framesOf (s : State) (n : Nat) : List Nat := s.listedFrames.filter fun f => s.frameCtx f == n

/-- The reserved frames of a context: its ring, its fallback area and its save area. -/
def Ctx.reserved (c : Ctx) : List Nat := (match c.area with | some f => rangeFrom f areaFrames | none => []) ++ c.savedFrames

/-- A context removed with everything that is its own. -/
def State.removeCtx (s : State) (n : Nat) : State :=
  { s with
    cx := if s.cx.live && s.cx.num == n then {} else s.cx
    ctxs := s.ctxs.filter (·.num != n)
    walks := s.walks.filter (·.ctx != n)
    fills := s.fills.filter (·.ctx != n)
    shoots := s.shoots.filter (·.ctx != n)
    coh := s.coh.filter (·.ctx != n)
    cores := s.cores.map fun p => (p.1, { p.2 with
      icache := p.2.icache.filter (·.ctx != n)
      stage := p.2.stage.filter (·.ctx != n)
      tagged := p.2.tagged.filter fun t => match t.2 with | some x => x.ctx != n | none => true })
    arrays := s.arrays.map fun p => (p.1, { p.2 with
      banks := p.2.banks.map fun b => (b.1, if b.2.lastCtx = n then { b.2 with lastCtx := 65536 } else b.2) }) }

/-- TEARDOWN (R500): it waits for a handover command and for accesses that are on their way; then a forced reset where a unit has
not completed or a save area exists, the shootdown of the whole region, every frame of the context but the RETIRED ones FREE with
CTX 0, its reserved frames free, and the context is gone. -/
def execTeardown (s : State) : Host.Outcome State Fault Refusal :=
  s.command 8 0 fun e =>
    match s.ctx? e.ctx with
    | none => s.answer e .badContext
    | some c =>
      if s.handoverBusy e.ctx || s.skids e.ctx || !s.canShoot e.ctx then s
      else
        let s0 := (s.answer e .none).modCtx e.ctx fun c => { c with tag := e.tag }
        let s1 := if c.units.any (·.complete.isNone) || c.saved.isSome then s0.forcedReset e.ctx else s0
        let s2 := (s1.shootAll e.ctx 0 (2 ^ 54)).dropPlanes e.ctx
        let s3 := ((s2.framesOf e.ctx).filter fun f => s2.frameState f != 4).foldl
          (fun (t : State) (f : Nat) => (((t.purgeFrame f).setFrameState f 0).setRefcnt f 0).setFrameCtx f 0) s2
        (s3.markFrames c.reserved 0).removeCtx e.ctx

/-! ### ATTEST (R443) -/

/-- Where the report lies: behind the journal in device-reserved memory (assumption log 20). -/
def State.reportPa (s : State) : Nat := s.dev.jbase.toNat + 0x400000

/-- The bytes of a report that the attestation key signs: magic, version and serial, the nonce, the measurements, the fused limits, the
attestation key and the identity key's signature over it (R442, R443). Version, serial and limits are free bytes. -/
def State.reportHead (s : State) (nonce : List Nat) : List Byte :=
  let free := fun (a n : Nat) => (rangeFrom a n).map (Config.reportByte s.dev.jseq)
  let key := bytesOfNat 32 (Config.publicKey s.dev.attSeed).toNat
  bytesOfNat 4 0x4B584154 ++ free 4 20 ++ nonce.flatMap (bytesOfNat 8) ++
    ((List.range 8).flatMap fun j => bytesOfNat 32 (SMap.get 0 s.dev.meas j).toNat) ++ free 312 64 ++ key ++
    (List.range 7856).map (Config.signature Config.deviceSeed key)

/-- The 16,120 bytes of a report (R443). -/
def State.reportBytes (s : State) (nonce : List Nat) : List Byte :=
  let h := s.reportHead nonce
  h ++ (List.range 7856).map (Config.signature s.dev.attSeed h)

/-- ATTEST -/
def execAttest (s : State) : Host.Outcome State Fault Refusal :=
  s.command 9 4 fun e =>
    let pa := s.reportPa
    let s1 := (s.storeBytes pa (s.reportBytes e.args)).answer e .none
    { s1 with dev := { s1.dev with report := some pa } }.journal { event := .report, ctx := e.ctx, detail := pa, tag := e.tag }

end Sys2Proof.Machine
end

