-- ==== Sys2Proof/Machine/System.lean ====
section
/-! DEFINITION. System registers (R16, R17, R290, R291 and the chapters that own each register). -/

namespace Sys2Proof.Machine

/-- The high word of a 64-bit value. -/
def hi32 (x : DWord) : Word := x.extractLsb' 32 32
/-- The low word. -/
def lo32 (x : DWord) : Word := x.extractLsb' 0 32

/-- %tstat (R379). -/
def TrapRegs.tstat (t : TrapRegs) : Word :=
  BitVec.ofNat 32 ((if t.tmask then 1 else 0) + (if t.inH then 2 else 0) + (if t.smask then 16 else 0) +
    (if t.sin then 32 else 0) + (if t.sscc then 64 else 0) + (if t.preq then 128 else 0))

/-- The island of a core: its grove's physical place (R277, R291). At boot a grove's physical number is what the die lists. -/
def State.islandOf (s : State) (core : Nat) : Nat :=
  let phys := SMap.get 34 (s.die (dieOf core)).groves (groveOf core % 32)
  if phys < 24 then phys / 6 else if phys < 29 then 4 else 5

/-- %coreid (R291). -/
def State.coreid (s : State) (core : Nat) : Word := BitVec.ofNat 32 (core + 512 * s.islandOf core)

/-- BKACT and ATTACH (R402, R417). -/
def Ctx.dbgctl (c : Ctx) : Word := BitVec.ofNat 32 ((if c.attach then 1 else 0) + (if c.bkact then 2 else 0))

/-- Breakpoint k (R402). -/
def Ctx.bp (c : Ctx) (k : Nat) : Bp := SMap.get {} c.bps k

/-- %bpctl (R402). -/
def Ctx.bpctl (c : Ctx) : Word :=
  (List.range 8).foldl (fun m k => setBit (setBit m k (c.bp k).en) (8 + k) (c.bp k).act) 0

/-- %carve (R71). -/
def Core.carve (c : Core) : Word :=
  BitVec.ofNat 32 (c.spways + 16 * c.l1Ways + 2 ^ 12 * c.level + (if c.lend then 2 ^ 15 else 0) + 2 ^ 16 * min c.defer 255)

/-- %partlo: the grove mask of the partition, every bit set where ARG3 = 0 names every grove (R432; assumption log 97). -/
def Ctx.partLo (c : Ctx) : Word := if c.partAll then 0xFFFFFFFF else c.partGroves
/-- %parthi: its die mask (R432). -/
def Ctx.partHi (c : Ctx) : Word := if c.partAll then 0xF else c.partDies.zeroExtend 32

/-- PTROOT (R20). -/
def Ctx.ptroot (c : Ctx) : DWord := c.gen ++ c.base ++ 0#12

/-- The value of a group register; none for a number that is not assigned (R240, R291, R377 and the others of its range). -/
def State.readGroupReg (s : State) (n : Nat) : Option Word :=
  let g := s.g
  match n with
  | 0x000 => some g.gid
  | 0x001 => some (BitVec.ofNat 32 (laneidOf g.exec))
  | 0x002 => some g.savedexec
  | 0x003 => some (BitVec.ofNat 32 g.wdcount)
  | 0x004 => some (boolWord g.scc)
  | 0x010 => some (lo32 g.tr.thand)
  | 0x011 => some (hi32 g.tr.thand)
  | 0x012 => some (lo32 g.tr.tep)
  | 0x013 => some (hi32 g.tr.tep)
  | 0x014 => some g.tr.tcause
  | 0x015 => some g.tr.tstat
  | 0x016 => some g.tr.tsexec
  | 0x017 => some g.tr.tscm
  | 0x018 => some g.tr.tsmode
  | 0x030 => some (lo32 g.xva)
  | 0x031 => some (hi32 g.xva)
  | 0x032 => some g.xdet
  | 0x034 => some (lo32 g.efva)
  | 0x035 => some (hi32 g.efva)
  | 0x036 => some g.efdet
  | 0x037 => some g.efsrc
  | 0x038 => some g.bxdet
  | 0x039 => some (lo32 g.bxpc)
  | 0x03A => some (hi32 g.bxpc)
  | 0x040 => some (g.dphase.zeroExtend 32)
  | 0x042 => some (g.chain.zeroExtend 32)
  | 0x044 => some g.rwrec
  | 0x045 => some (lo32 g.rwpc)
  | 0x046 => some (hi32 g.rwpc)
  | _ => none

/-- The value of a team register (R71, R240, R273, R391). -/
def State.readTeamReg (s : State) (n : Nat) : Option Word :=
  let t := s.tm
  match n with
  | 0x100 => some (s.g.teamIdx.zeroExtend 32)
  | 0x101 => some (BitVec.ofNat 32 t.size)
  | 0x102 => some (BitVec.ofNat 32 t.w)
  | 0x103 => some (BitVec.ofNat 32 t.count)
  | 0x104 => some (t.graph.zeroExtend 32)
  | 0x105 => some (t.phase.zeroExtend 32)
  | 0x106 => some t.termmask
  | 0x107 => some t.termstat
  | 0x108 => some (match s.unitOf t with | some u => u.succSkip | none => 0)
  | _ => none

/-- The value of a core register (R71, R291). -/
def State.readCoreReg (s : State) (n : Nat) : Option Word :=
  match n with
  | 0x200 => some (lo32 s.dev.time)
  | 0x201 => some s.g.clockhi
  | 0x202 => some (s.coreid s.g.core)
  | 0x203 => some (s.dev.pkgid.zeroExtend 32)
  | 0x210 => some (s.core s.g.core).carve
  | _ => none

/-- The value of a context register (R20, R36, R72, R432, R438). -/
def State.readCtxReg (s : State) (n : Nat) : Option Word :=
  let c := s.cx
  if 0x410 ≤ n ∧ n < 0x428 then
    let k := (n - 0x410) / 2
    some (if n % 2 = 0 then SMap.get 0xFFFFFFFF c.flHead k else SMap.get 0 c.flCount k)
  else
    match n with
    | 0x400 => some (lo32 c.ptroot)
    | 0x401 => some (hi32 c.ptroot)
    | 0x428 => some (lo32 (s.die (dieOf s.g.core)).l2quota)
    | 0x429 => some (hi32 (s.die (dieOf s.g.core)).l2quota)
    | 0x430 => some c.reach
    | 0x431 => some (c.jobTag.zeroExtend 32)
    | 0x434 => some c.partLo
    | 0x435 => some c.partHi
    | _ => none

/-- The value of a Delbeing register (R402). -/
def State.readDbgReg (s : State) (n : Nat) : Option Word :=
  let c := s.cx
  if 0x610 ≤ n ∧ n < 0x620 then
    let va := (c.bp ((n - 0x610) / 2)).va
    some (if n % 2 = 0 then lo32 va else hi32 va)
  else
    match n with
    | 0x600 => some (lo32 c.smpring)
    | 0x601 => some (hi32 c.smpring)
    | 0x602 => some (lo32 c.trcring)
    | 0x603 => some (hi32 c.trcring)
    | 0x604 => some c.smpctl
    | 0x605 => some c.trccfg
    | 0x606 => some c.dbgctl
    | 0x620 => some c.bpctl
    | _ => none

/-- The value of a system register as the group reads it; none where R17 refuses the read. -/
def State.readSysReg (s : State) (n : Nat) : Option Word :=
  if n < 0x100 then s.readGroupReg n
  else if n < 0x200 then s.readTeamReg n
  else if n < 0x400 then s.readCoreReg n
  else if n < 0x600 then (if s.g.priv then s.readCtxReg n else none)
  else if n < 0x800 then s.readDbgReg n
  else none

/-- The registers a group may write: those of the group, and the ring addresses for a context-privileged group (R17, R402). -/
def Group.mayWrite (g : Group) (n : Nat) : Bool :=
  [0x002, 0x004, 0x010, 0x011, 0x012, 0x013, 0x015, 0x016, 0x017, 0x018, 0x040, 0x042].contains n ||
    (g.priv && [0x600, 0x601, 0x602, 0x603].contains n)

/-- A 64-bit value with its low word replaced. -/
def withLo (x : DWord) (w : Word) : DWord := hi32 x ++ w
/-- A 64-bit value with its high word replaced. -/
def withHi (x : DWord) (w : Word) : DWord := w ++ lo32 x

/-- The RW fields of a system register written; reserved and RO fields keep their values (R7, R290). -/
def State.writeSysReg (s : State) (n : Nat) (x : Word) : State :=
  let g := s.g
  match n with
  | 0x002 => s.modG fun g => { g with savedexec := x }
  | 0x004 => s.modG fun g => { g with scc := x.getLsbD 0 }
  | 0x010 => s.modG fun g => { g with tr := { g.tr with thand := withLo g.tr.thand (x &&& 0xFFFFFFFD) } }
  | 0x011 => s.modG fun g => { g with tr := { g.tr with thand := withHi g.tr.thand x } }
  | 0x012 => s.modG fun g => { g with tr := { g.tr with tep := withLo g.tr.tep x } }
  | 0x013 => s.modG fun g => { g with tr := { g.tr with tep := withHi g.tr.tep x } }
  | 0x015 => s.modG fun g => { g with tr :=
      { g.tr with tmask := x.getLsbD 0, smask := x.getLsbD 4, sin := x.getLsbD 5, sscc := x.getLsbD 6 } }
  | 0x016 => s.modG fun g => { g with tr := { g.tr with tsexec := x } }
  | 0x017 => s.modG fun g => { g with tr := { g.tr with tscm := x } }
  | 0x018 => s.modG fun g => { g with tr := { g.tr with tsmode := x } }
  | 0x040 => s.modG fun g => { g with dphase := x.extractLsb' 0 5 }
  | 0x042 => s.modG fun g => { g with chain := x.extractLsb' 0 2 }
  | 0x600 => s.modCx fun c => { c with smpring := withLo c.smpring x }
  | 0x601 => s.modCx fun c => { c with smpring := withHi c.smpring x }
  | 0x602 => s.modCx fun c => { c with trcring := withLo c.trcring x }
  | 0x603 => s.modCx fun c => { c with trcring := withHi c.trcring x }
  | _ => { s with g := g }

/-- RDSR (R290): a read of %clock latches the high word for %clockhi (R291). -/
def execRdsr (p : BitVec 7) (k : BitVec 12) (s : State) : Host.Outcome State Fault Refusal :=
  match s.readSysReg k.toNat with
  | none => s.issue (operandCheck s.g [] [sOpd p 3] (.raise (illegal 5))) id
  | some x =>
    s.issue (operandCheck s.g [] [sOpd p 3]) fun s =>
      s.modG fun g => { (g.setS p.toNat x) with clockhi := if k = 0x200 then hi32 s.dev.time else g.clockhi }

/-- WRSR (R290). A write that clears TMASK lets a deferred save request stop the group (R392). -/
def execWrsr (p : BitVec 7) (k : BitVec 12) (s : State) : Host.Outcome State Fault Refusal :=
  let x := s.g.sreg p.toNat
  let own := raiseIf (!s.g.mayWrite k.toNat) (illegal 5)
  match operandCheck s.g [sOpd p 1] [] own with
  | .ok => .next (((s.writeSysReg k.toNat x).retire (s.g.pc + 4)).unmaskStop)
  | c => s.issue c id

end Sys2Proof.Machine
end

