-- ==== Sys2Proof/Machine/Debugger.lean ====
section
/-! DEFINITION. Commands of a debugger (R418 to R424). -/

namespace Sys2Proof.Machine

/-- A DEBUG submission of one code: bits that R419 does not assign must be 0 and every value legal, or it is refused with
BAD_ENTRY; then its context must exist. `m` holds the assigned bits of ARG0[63:8] and of ARG1 to ARG3. -/
def State.debug (s : State) (code : Nat) (m : List Nat) (legal : SqEntry → Bool) (f : SqEntry → Ctx → State) :
    Host.Outcome State Fault Refusal :=
  .next (match s.sqHead with
    | none => s
    | some e =>
      if e.kind ≠ 4 ∨ e.arg 0 % 256 ≠ code then s
      else
        let got := [e.arg 0 / 256, e.arg 1, e.arg 2, e.arg 3]
        let clean := (got.zip m).all fun p => p.1 &&& p.2 == p.1
        if !e.wellFormed 4 || !clean || !legal e then s.answer e .badEntry
        else match s.ctx? e.ctx with
          | none => s.answer e .badContext
          | some c => f e c)

/-- All 64 bits. -/
def all64 : Nat := 2 ^ 64 - 1
/-- The low 32 bits. -/
def all32 : Nat := 2 ^ 32 - 1

/-- ATTACH (R402, R417, R419). -/
def execAttach (s : State) : Host.Outcome State Fault Refusal :=
  s.debug 0x40 [0xF, all64, all64, 0] (fun _ => true) fun e _ =>
    (s.modCtx e.ctx fun c =>
      { c with
        attach := bitsN (e.arg 0) 8 1 == 1, bkact := bitsN (e.arg 0) 9 1 == 1
        smpring := if bitsN (e.arg 0) 10 1 = 1 then BitVec.ofNat 64 (e.arg 1) else c.smpring
        trcring := if bitsN (e.arg 0) 11 1 = 1 then BitVec.ofNat 64 (e.arg 2) else c.trcring }).answer e .none

/-- HALT (R420): the line is raised, and the command ends once every stop record is in. -/
def execHalt (s : State) : Host.Outcome State Fault Refusal :=
  s.debug 0x41 [0, 0, 0, 0] (fun _ => true) fun e c =>
    if c.debugHalt then s.answer e .none else s.modCtx e.ctx fun c => { c with cut := some 3 }

/-- The groups of a halted context go on after RESUME: their first issue meets no breakpoint (R416), and while a save is in
progress a group with no deferred request stays stopped for it (R392). -/
def State.debugResume (s : State) (c : Ctx) : State :=
  let s1 := (s.modCtx c.num fun c => { c with debugHalt := false }).mapGroups fun g =>
    if g.live && g.ctx == c.num then
      { g with bpSkip := true, stopCause := if c.isSaving && !g.tr.preq && g.stopCause != 5 then 2 else g.stopCause }
    else g
  if c.halt = .lowered then s1.lowerLine c.num else s1

/-- RESUME (R420). -/
def execResume (s : State) : Host.Outcome State Fault Refusal :=
  s.debug 0x42 [0, 0, 0, 0] (fun _ => true) fun e c =>
    if c.debugHalt then (s.debugResume c).answer e .none else s.answer e .notHalted

/-- The group of a context that a `%gid` names and that has not ended. -/
def State.groupOfGid (s : State) (ctx gid : Nat) : Option Group :=
  s.groups.find? fun g => g.ctx == ctx && g.gid.toNat == gid && g.st != .ended

/-- The groups a FREEZE or a THAW names: the group, or every group of its team (R419). -/
def State.namedGroups (s : State) (e : SqEntry) : List Group :=
  let ofTeam := (s.groupsOf e.ctx).filter fun g => g.st != .ended && g.gid.toNat / 32 == e.arg 1 / 32
  if bitsN (e.arg 0) 8 1 = 1 then
    if (s.groupsOf e.ctx).any fun g => g.gid.toNat == e.arg 1 then ofTeam else []
  else ofTeam.filter fun g => g.gid.toNat == e.arg 1

/-- FREEZE (R421): it waits for a `tlbinv` of a named group that the sequencer has accepted (R43, R152). -/
def execFreeze (s : State) : Host.Outcome State Fault Refusal :=
  s.debug 0x43 [1, all32, 0, 0] (fun _ => true) fun e _ =>
    match s.namedGroups e with
    | [] => s.answer e .noGroup
    | l => if l.any fun g => s.groupSkids g.key then s else (l.foldl (fun (t : State) (g : Group) => t.freezeGroup g.key) s).answer e .none

/-- THAW (R421): it names no error, so a `%gid` without a group changes nothing. -/
def execThaw (s : State) : Host.Outcome State Fault Refusal :=
  s.debug 0x44 [1, all32, 0, 0] (fun _ => true) fun e _ =>
    ((s.namedGroups e).foldl (fun (t : State) (g : Group) => t.thawGroup g.key) s).answer e .none

/-- The reasons that end by themselves while a step is under way (R39, R143). -/
def Reason.brief : Reason → Bool
  | .translation | .ifetch => true
  | _ => false

/-- An instruction of the group that another party has begun ends without the group: a shootdown, or a re-issue that the array may
run (R43, R238). -/
def State.endsAlone (s : State) (g : Group) : Bool := g.inProgress && (s.ctxRuns g.ctx || s.shoots.any (·.g == some g.key))

/-- STEP (R418, R420): the group is released for one instruction, a step at a time: the command stays at the head of the
queue until the group has stopped again and a fault it met has been contained. A group in STALLED, BLOCKED or LOADING issues
nothing and gives WAITING; a group that runs is not halted. -/
def execStep (s : State) : Host.Outcome State Fault Refusal :=
  s.debug 0x45 [0, all32, 0, 0] (fun _ => true) fun e c =>
    let done := fun (t : State) (err : JError) => { t with dev := { t.dev with stepKey := none } }.answer e err
    match s.dev.stepKey with
    | some k =>
      match s.group? k with
      | none => done s .none
      | some g =>
        if g.st = .ended ∨ g.st = .stopped ∨ g.st = .frozen then
          if c.halt = .lowered then done (s.restop k) .none else s
        else if !g.stepping then done s .none
        else if (g.st = .stalled ∨ g.st = .blocked) ∧ !g.reason.brief ∧ !s.endsAlone g then done (s.restop k) .waiting
        else s
    | none =>
      match s.groupOfGid e.ctx (e.arg 1) with
      | none => s.answer e .noGroup
      | some g =>
        if c.halt ≠ .lowered ∨ c.isSaving ∨ c.cut.isSome ∨ s.groupSkids g.key then s
        else if !(g.st = .frozen ∨ (g.st = .stopped ∧ c.debugHalt)) then s.answer e .notHalted
        else if g.stLeft = .stalled ∨ g.stLeft = .blocked ∨ g.stLeft = .loading then s.answer e .waiting
        else
          let s1 := s.modGroup g.key fun g =>
            { g with st := .ready, stepping := true, freezeReq := g.st == .frozen, bpSkip := true }
          { s1 with dev := { s1.dev with stepKey := some g.key } }.withFocus g.key State.traceResume

/-- SETBP (R402, R416). -/
def execSetbp (s : State) : Host.Outcome State Fault Refusal :=
  s.debug 0x46 [0x1F, all64 - 3, 0, 0] (fun _ => true) fun e _ =>
    let b : Bp := { va := BitVec.ofNat 64 (e.arg 1), en := bitsN (e.arg 0) 11 1 == 1, act := bitsN (e.arg 0) 12 1 == 1 }
    (s.modCtx e.ctx fun c => { c with bps := SMap.set {} c.bps (bitsN (e.arg 0) 8 3) b }).answer e .none

/-- The physical lines of a range of a context's local region; a page without a usable leaf is skipped. -/
def State.hwLines (s : State) (c : Ctx) (va n : Nat) : List Nat :=
  if n = 0 then []
  else
    (rangeFrom (va / 128) ((va % 128 + n - 1) / 128 + 1)).filterMap fun k => (s.hwAddr c (k * 128) .read).map lineOf

/-- ICINV (R166, R418): over every core of the context. -/
def execDebugIcinv (s : State) : Host.Outcome State Fault Refusal :=
  s.debug 0x47 [0, all64, all64, 0] (fun _ => true) fun e c =>
    (s.dropILines e.ctx (List.range 512) (s.hwLines c (e.arg 1) (min (e.arg 2) (2 ^ 54 - e.arg 1)))).answer e .none

/-! ### DUMP (R423, R424) -/

/-- A record of a dump: its section in the order of R423, and its bytes. -/
structure DumpRec where
  sec : Nat
  bytes : List Byte
  deriving DecidableEq, Repr

/-- A record: bytes that the spec places at its start, then those whose layout inside the save area it does not give, which are free
and at most what R395 bounds them by. -/
def dumpRec (sec : Nat) (first : List Byte) (bound n : Nat) : DumpRec where
  sec := sec
  bytes := first ++ (List.range (min bound (Config.dumpSize sec n))).map (Config.dumpByte n)

/-- The bytes of a team's window, in order (R14, R395). -/
def Team.window (t : Team) : List Byte := winBytes t.win 0 t.w

/-- The records of a dump in their order (R423): graft state with a context, then teams, groups, banks and plane pairs of the
groups chosen, then their stop records. The record of a team begins with its window (R14, R395; assumption log 14). -/
def dumpRecs (c : Ctx) (a : SaveArea) (scope : Nat) (mine : Group → Bool) (n : Nat) : List DumpRec :=
  let gs := a.groups.filter mine
  let owner := fun (k : Nat) => gs.any (·.key == k)
  let held := fun (o : Option Plane) => match o with | some p => owner p.owner | none => false
  let le := fun (x y : Nat × Nat) => decide (x.1 < y.1) || (x.1 == y.1 && decide (x.2 ≤ y.2))
  let graft := if scope = 0 ∧ (c.graft ≠ [] ∨ c.matchCnt ≠ [] ∨ c.graftCnt ≠ []) then [(0, [], 8256)] else []
  let teams := if scope = 2 then [] else
    (orderBy (a.teams.filter fun t => gs.any (·.team == t.key)) fun x y =>
      le (x.idx.toNat, x.lslot.toNat) (y.idx.toNat, y.lslot.toNat)).map fun t => (1, t.window, 8192)
  let banks := (a.banks.filter fun b => match b.2.2.owner with | some k => owner k | none => false).map fun _ => (3, [], 24576)
  let planes := (a.planes.filter fun p => held p.2.2.front || held p.2.2.shadow).map fun _ => (4, [], 73728)
  let l : List (Nat × List Byte × Nat) := graft ++ teams ++ (gs.map fun _ => (2, [], 16384)) ++ banks ++ planes
  ((l.zip (List.range l.length)).map fun x => dumpRec x.1.1 x.1.2.1 x.1.2.2 (n + x.2)) ++
    (c.stops.filter fun r => scope == 0 || gs.any (·.gid == r.gid)).map fun r => { sec := 5, bytes := r.bytes }

/-- What a dump's header says (R424). -/
structure DumpHdr where
  scope : Nat
  ctx : Nat
  id : Nat
  time : DWord
  reqsize : Nat
  written : Nat := 0
  counts : List Nat := []
  trunc : Bool := false
  faulted : Bool := false
  complete : Bool := false
  faultoff : Nat := 0
  faultdet : Word := 0
  deriving DecidableEq, Repr

/-- The 256 bytes of the header (R424). -/
def DumpHdr.bytes (h : DumpHdr) : List Byte :=
  let flags := (if h.trunc then 1 else 0) + (if h.faulted then 2 else 0) + (if h.complete then 4 else 0)
  bytesOfNat 16 0x4B584431 ++ bytesOfNat 1 flags ++ bytesOfNat 1 h.scope ++ bytesOfNat 2 h.ctx ++ bytesOfNat 4 h.id ++
    bytesOfNat 8 h.time.toNat ++ bytesOfNat 8 h.reqsize ++ bytesOfNat 8 h.written ++ bytesOfNat 8 h.faultoff ++
    bytesOfNat 4 h.faultdet.toNat ++ bytesOfNat 16 0 ++
    ((List.range 6).flatMap fun k => bytesOfNat 4 (h.counts.getD k 0)) ++ bytesOfNat 156 0

/-- The detail word of a failed write of the heartwood core (R49). -/
def State.hwDetail (s : State) (c : Ctx) (va : Nat) : Word :=
  let det := fun lv rsn => xdetWord false s.dev.pkgid.toNat lv rsn .write 0
  if 2 ^ 54 ≤ va then det 7 rsnNoncanon
  else
    match walkTable (readD s.mem) c va with
    | .absent _ level => det level 0
    | .bad level => det level rsnMalformed
    | .leaf _ level e =>
      if pteHpend e || pteHown e then det level 0
      else
        let t := tlbOfLeaf c va level e
        match checkBits t 0 (t.frame * 65536 + va % t.size) .write det with
        | .raise r => r.xdet
        | _ => 0

/-- The first address of a range that cannot be written. -/
def State.hwFail (s : State) (c : Ctx) (va n : Nat) : Nat :=
  ((rangeFrom va n).find? fun a => (s.hwAddr c a .write).isNone).getD va

/-- Whole records written one after another while they fit and no write fails (R423). -/
def State.dumpRun (c : Ctx) (va size : Nat) : List DumpRec → Nat → DumpHdr → State → State × DumpHdr
  | [], off, h, s => (s, { h with written := off })
  | r :: t, off, h, s =>
    if size < off + r.bytes.length then (s, { h with written := off, trunc := true })
    else
      match s.hwWrite c (va + off) r.bytes with
      | none => (s, { h with written := off, faulted := true, faultoff := off, faultdet := s.hwDetail c (s.hwFail c (va + off) r.bytes.length) })
      | some v =>
        State.dumpRun c va size t (off + r.bytes.length)
          { h with counts := (List.range 6).map fun k => h.counts.getD k 0 + (if k = r.sec then 1 else 0) } v

/-- The final header copied to the context's fallback area, which lies behind its stop-record ring (R423; assumption log 13). -/
def State.keepHeader (s : State) (c : Ctx) (h : DumpHdr) : State :=
  match c.area with
  | some f => s.devWrite c.num ((f + 4) * 65536) { h with complete := true }.bytes
  | none => s

/-- The dump written: header, records, header again, and the fallback copy (R423). -/
def State.dump (s : State) (c : Ctx) (h : DumpHdr) (va size : Nat) (l : List DumpRec) : State :=
  if size < 256 then s.keepHeader c { h with trunc := true }
  else
    match s.hwWrite c va h.bytes with
    | none => s.keepHeader c { h with faulted := true, faultdet := s.hwDetail c (s.hwFail c va 256) }
    | some s1 =>
      let (s2, h2) := State.dumpRun c va size l 256 h s1
      ((s2.hwWrite c va { h2 with complete := true }.bytes).getD s2).keepHeader c h2

/-- The groups a DUMP names (R419). -/
def dumpPick (scope id : Nat) (g : Group) : Bool :=
  scope == 0 || (scope == 1 && g.gid.toNat / 32 == id / 32) || (scope == 2 && g.gid.toNat == id)

/-- DUMP (R423): it waits for a handover command that holds pages of the context (R26 step 1). -/
def execDump (s : State) : Host.Outcome State Fault Refusal :=
  s.debug 0x48 [3, all32, all64, all64]
    (fun e =>
      let scope := bitsN (e.arg 0) 8 2
      scope != 3 && !(scope == 0 && e.arg 1 != 0) && !(scope == 1 && e.arg 1 % 32 != 0)) fun e c =>
    let scope := bitsN (e.arg 0) 8 2
    let pick := dumpPick scope (e.arg 1)
    let a := c.saved.getD (s.saveArea c (0, 0))
    if scope ≠ 0 ∧ !(a.groups.any pick) then s.answer e .noGroup
    else if c.saved.isNone && a.groups.any fun g => pick g && g.st != .stopped && g.st != .frozen && g.st != .ended then
      s.answer e .busy
    else if s.hwHeld e.ctx then s
    else
      let l := dumpRecs c a scope pick s.freeCtr
      let h : DumpHdr :=
        { scope := scope, ctx := e.ctx, id := if scope = 1 then bitsN (e.arg 1) 5 20 else e.arg 1, time := s.dev.time
          reqsize := 256 + (l.map (·.bytes.length)).sum }
      ({ s with freeCtr := s.freeCtr + l.length }.dump c h (e.arg 2) (e.arg 3) l).answer e .none

/-! ### WRREG -/

/-- A register of a stopped group written; a cleared TMASK lets a deferred save request reach it (R392, R418). -/
def State.wrreg (s : State) (k space code : Nat) (mask x : Word) : State :=
  match space with
  | 0 => s.modGroup k fun g => g.writeLanes code mask (fun _ => x) 32
  | 1 => s.modGroup k fun g => g.setS code x
  | _ => (s.withFocus k fun t => t.writeSysReg code x).modGroup k fun g =>
      if g.tr.preq && !g.tr.tmask then { g with tr := { g.tr with preq := false }, stopCause := 2 } else g

/-- The group may have a register written by WRREG. -/
def Group.wrregOk (g : Group) (space code : Nat) : Bool :=
  match space with
  | 0 => g.holdsV code
  | 1 => g.holdsS code
  | _ => g.mayWrite code

/-- WRREG (R418): tags and full/empty bits stay. -/
def execWrreg (s : State) : Host.Outcome State Fault Refusal :=
  s.debug 0x49 [0x3FFF, all64, all32, 0]
    (fun e =>
      let space := bitsN (e.arg 0) 8 2
      let code := bitsN (e.arg 0) 10 12
      space != 3 && !(space == 0 && decide (95 < code)) && !(space == 1 && decide (63 < code)) &&
        !(space != 0 && decide (2 ^ 32 ≤ e.arg 1))) fun e _ =>
    let space := bitsN (e.arg 0) 8 2
    let code := bitsN (e.arg 0) 10 12
    match s.groupOfGid e.ctx (e.arg 1 % 2 ^ 32) with
    | none => s.answer e .noGroup
    | some g =>
      if g.st ≠ .stopped ∧ g.st ≠ .frozen then s.answer e .busy
      else if !g.wrregOk space code then s.answer e .badEntry
      else (s.wrreg g.key space code (BitVec.ofNat 32 (e.arg 1 / 2 ^ 32)) (BitVec.ofNat 32 (e.arg 2))).answer e .none

end Sys2Proof.Machine
end

