-- ==== Sys2Proof/Machine/Device.lean ====
section
/-! DEFINITION. The device as the host and the board see it: registers, handover, the memory window, the sideband, power,
boot, and the retirement of faulty parts (R72 to R74, R91, R93 to R97, R277, R427, R428, R433, R437, R439 to R448). -/

namespace Sys2Proof.Machine

/-- The package's own state changed. -/
def State.modDev (s : State) (f : Dev → Dev) : State := { s with dev := f s.dev }

/-- The number of a grove island: die and quadrant (R447). -/
def groveIslands : List Nat := (List.range 32).filter fun i => decide (i % 8 < 6)

/-- Every grove island put at step 6. -/
def State.slowAll (s : State) : State :=
  groveIslands.foldl (fun (t : State) (i : Nat) => t.modIsland i fun x => { x with step := 6, since := 0 }) s

/-! ### Power (R447, R448) -/

/-- The measured L2 and I/O energy per 100 µs, a value of the outside (R447). -/
def State.measuredRest (s : State) : Nat :=
  (((List.range 32).filter fun i => decide (6 ≤ i % 8)).map fun i => (Config.islandMeter i 4 s.steps).toNat).sum

/-- BUDGET of an island: the host's value, and with a cap an equal share of what the cap leaves to the 24 grove islands; 1 W
is 100 µJ per 100 µs (R447). -/
def State.budgetOf (s : State) (i : Nat) : Word :=
  let host := (s.island i).hostBudget
  if s.dev.powercap = 0 ∨ 6 ≤ i % 8 then host
  else BitVec.ofNat 32 (min host.toNat ((100 * s.dev.powercap.toNat - s.measuredRest) / 24))

/-- The budgets of every island set anew. -/
def State.applyCap (s : State) : State :=
  (List.range 32).foldl (fun (t : State) (i : Nat) => t.modIsland i fun x => { x with budget := s.budgetOf i }) s

/-- POWERCAP written: bits [15:0] (R447). -/
def State.writePowercap (s : State) (val : DWord) : State := (s.modDev fun d => { d with powercap := val &&& 0xFFFF }).applyCap

/-- BUDGET written, clamped to the fused ceiling (R444, R447). -/
def State.writeBudget (s : State) (i : Nat) (val : Word) : State :=
  let s1 := s.modIsland i fun x => { x with hostBudget := if (Config.ceil i).toNat < val.toNat then Config.ceil i else val }
  s1.modIsland i fun x => { x with budget := s1.budgetOf i }

/-- POWERCAP_WRITE -/
def execPowercapWrite (val : BitVec 64) (s : State) : Host.Outcome State Fault Refusal := .next (s.writePowercap val)
/-- BUDGET_WRITE -/
def execBudgetWrite (island : BitVec 5) (val : BitVec 32) (s : State) : Host.Outcome State Fault Refusal :=
  .next (s.writeBudget island.toNat val)

/-- THROTTLE_ASSERT (R448). -/
def execThrottleAssert (s : State) : Host.Outcome State Fault Refusal := .next (s.slowAll.modDev fun d => { d with throttle := true })
/-- THROTTLE_RELEASE (R448): the islands rise under R279. -/
def execThrottleRelease (s : State) : Host.Outcome State Fault Refusal := .next (s.modDev fun d => { d with throttle := false })
/-- PACKAGE_CURRENT_LIMIT (R444). -/
def execPackageCurrentLimit (s : State) : Host.Outcome State Fault Refusal := .next s.slowAll

/-- THERMAL_LIMIT (R447): a TEMP above 110 °C, in 1/16 °C, holds the island at step 6. -/
def execThermalLimit (island : BitVec 5) (temp : BitVec 32) (s : State) : Host.Outcome State Fault Refusal :=
  .next (s.modIsland island.toNat fun x =>
    let hot := decide (1760 < temp.toInt)
    { x with temp := temp, hot := hot, step := if hot then 6 else x.step, since := if hot then 0 else x.since })

/-! ### L2 quotas (R72, R73) -/

/-- A quota that R73 accepts. -/
def quotaLegal (q : DWord) : Bool :=
  (List.range 4).all (fun c => decide (quotaMin q c ≤ quotaMax q c) && decide (quotaMax q c ≤ 16)) &&
    decide (((List.range 4).map (quotaMin q)).sum ≤ 16)

/-- L2QUOTA of a die written: its RW fields, or refused (R72, R73). -/
def State.writeQuota (s : State) (die : Nat) (val : DWord) : State :=
  let q := val &&& 0x1F1F1F1F1F1F1F1F
  s.modDie die fun d => if quotaLegal q then { d with l2quota := q, quotaRefused := false } else { d with quotaRefused := true }

/-- L2QUOTA_WRITE -/
def execL2quotaWrite (die : BitVec 2) (val : BitVec 64) (s : State) : Host.Outcome State Fault Refusal :=
  .next (s.writeQuota die.toNat val)

/-! ### Handover (R93 to R97) -/

/-- VA of the first page (R94). -/
def HoSlot.va (h : HoSlot) : Nat := h.addr.toNat
/-- CTX -/
def HoSlot.ctx (h : HoSlot) : Nat := (h.ctl.extractLsb' 48 16).toNat
/-- DIR: true is TO_DEVICE. -/
def HoSlot.toDevice (h : HoSlot) : Bool := h.ctl.getLsbD 24
/-- PAGES -/
def HoSlot.pages (h : HoSlot) : Nat := (h.ctl.extractLsb' 0 17).toNat
/-- HOSTATUS -/
def HoSlot.status (h : HoSlot) : Nat := h.code.toNat + 2 ^ 32 * h.failidx.toNat

/-- The slot of a number. -/
def State.hoSlot (s : State) (n : Nat) : HoSlot := SMap.get {} s.dev.ho n
/-- A slot changed. -/
def State.modHo (s : State) (n : Nat) (f : HoSlot → HoSlot) : State := s.modDev fun d => { d with ho := SMap.modify {} d.ho n f }

/-- The check of one page of a range: an error code of R96, or its leaf (R95). A malformed entry is no valid leaf (assumption log 89). -/
def State.hoPage (s : State) (c : Ctx) (h : HoSlot) (i : Nat) : Except Nat (Nat × Nat × DWord) :=
  let va := h.va + 65536 * i
  if 2 ^ 54 ≤ va then .error 3
  else
    match walkTable (readD s.mem) c va with
    | .leaf ea level e =>
      let size := leafSize level
      let lo := va / size * size
      if pteHpend e || pteHown e != h.toDevice then .error 4
      else if lo < h.va ∨ h.va + 65536 * h.pages < lo + size then .error 5
      else .ok (ea, level, e)
    | _ => .error 3

/-- The pages of a range checked in ascending order: the first error with its index, or the leaves (R95). -/
def State.hoPages (s : State) (c : Ctx) (h : HoSlot) : Nat → Nat → Except (Nat × Nat) (List (Nat × Nat × DWord))
  | 0, _ => .ok []
  | n + 1, i =>
    match s.hoPage c h i with
    | .error e => .error (e, i)
    | .ok x =>
      match s.hoPages c h n (i + 1) with
      | .error e => .error e
      | .ok l => .ok (if l.any (·.1 == x.1) then l else x :: l)

/-- A handover command ended with a code: HOSTATUS, the journal, then MSI-X (R95, R97, R434). FAILIDX is 0 while the command is BUSY
and after DONE (assumption log 89). -/
def State.hoEnd (s : State) (n : Nat) (code idx : Nat) : State :=
  let s1 := s.modHo n fun h => { h with code := BitVec.ofNat 4 code, failidx := BitVec.ofNat 16 idx, begun := false, leaves := [] }
  let h := s1.hoSlot n
  let s2 := s1.journal { event := .handover, ctx := h.ctx, detail := h.status }
  if h.ctl.getLsbD 31 then s2.modDev fun d => { d with msix := d.msix ++ [h.ctl.extractLsb' 25 6] } else s2

/-- HOWN and HPEND of the leaves of a command written, every other field as it is found (R97). -/
def State.swapLeaves (s : State) (h : HoSlot) (hown hpend : Bool) (l : List Nat) : State :=
  l.foldl
    (fun (t : State) (ea : Nat) =>
      let e := readD t.mem ea &&& ~~~0xC00#64
      t.devWrite h.ctx ea (bytesOfNat 8 (e ||| (if hown then 0x400 else 0) ||| (if hpend then 0x800 else 0)).toNat)) s

/-- Steps 1 and 2 of a valid command: its leaves become RELEASING or ACQUIRING, and TO_HOST submits the range to the shootdown
sequencer (R97). -/
def State.hoBegin (s : State) (n : Nat) (l : List (Nat × Nat × DWord)) : State :=
  let h := s.hoSlot n
  let s1 := (s.swapLeaves h h.toDevice true (l.map (·.1))).modHo n fun h =>
    { h with begun := true, leaves := l.map fun x => (x.1, x.2.1) }
  if h.toDevice then s1
  else { s1 with shoots := s1.shoots ++ [{ ctx := h.ctx, g := none, lo := h.va, hi := h.va + 65536 * h.pages, ho := some n }] }

/-- The frames of a leaf at a level. -/
def leafFrames (level : Nat) (e : DWord) : List Nat := rangeFrom (pteFrame e) (leafSize level / 65536)

/-- No request for a line of a frame and no store to it is on its way. -/
def State.frameQuiet (s : State) (f : Nat) : Bool := !(s.coh.any fun q => q.line / 512 == f) && !(s.pend.any fun p => p.pa / 65536 == f)

/-- Steps 3 to 5 of a command, once its shootdown has completed and the lines of its frames are at rest: they are written back and
invalidated, its leaves become HOST or DEVICE, and the command ends (R97). -/
def State.hoFinish (s : State) (n : Nat) : State :=
  let h := s.hoSlot n
  let frames := h.leaves.flatMap fun x => leafFrames x.2 (readD s.mem x.1)
  if s.shoots.any (·.ho == some n) || frames.any fun f => !s.frameQuiet f then s
  else ((frames.foldl (fun (t : State) (f : Nat) => t.dropFrame f) s).swapLeaves h (!h.toDevice) false (h.leaves.map (·.1))).hoEnd n 2 0

/-- The command of a slot is the oldest of its context (R95). -/
def State.hoTurn (s : State) (n : Nat) : Bool :=
  let h := s.hoSlot n
  h.code == 1 && s.dev.ho.all fun p => p.2.code != 1 || p.2.ctx != h.ctx || decide (h.order ≤ p.2.order)

/-- The command of a slot goes on when its turn has come and its direction is `toDevice`: the whole range is validated before anything
changes (R95). -/
def State.handover (s : State) (n : Nat) (toDevice : Bool) : State :=
  let h := s.hoSlot n
  if !s.hoTurn n || h.toDevice != toDevice then s
  else if h.begun then s.hoFinish n
  else if h.pages = 0 ∨ 65536 < h.pages ∨ 2 ^ 54 ≤ h.va then s.hoEnd n 7 0
  else
    match s.ctx? h.ctx with
    | none => s.hoEnd n 6 0
    | some c =>
      match s.hoPages c h h.pages 0 with
      | .error (e, i) => s.hoEnd n e i
      | .ok l => s.hoBegin n l

/-- TO_HOST -/
def execToHost (slot : BitVec 6) (s : State) : Host.Outcome State Fault Refusal := .next (s.handover slot.toNat false)
/-- TO_DEVICE -/
def execToDevice (slot : BitVec 6) (s : State) : Host.Outcome State Fault Refusal := .next (s.handover slot.toNat true)

/-- A slot register written; nothing while the slot is BUSY (R94). -/
def State.writeSlot (s : State) (n off : Nat) (val : DWord) : State :=
  if (s.hoSlot n).code = 1 then s
  else if off = 0 then s.modHo n fun h => { h with addr := val &&& 0xFFFFFFFFFFFF0000 }
  else if off = 8 then s.modHo n fun h => { h with ctl := val &&& 0xFFFF0000FF01FFFF }
  else if off = 0x18 then
    (s.modHo n fun h => { h with code := 1, failidx := 0, order := s.dev.hoOrder }).modDev fun d => { d with hoOrder := d.hoOrder + 1 }
  else s

/-! ### Registers (R427, R428) -/

/-- A register of BAR 0 written (R428); every other offset ignores the write. -/
def State.writeBar0 (s : State) (off : Nat) (val : DWord) : State :=
  if off = 0x10 then (if val.toNat % 64 = 0 then s.modDev fun d => { d with sqbase := val } else s)
  else if off = 0x18 then
    (if [16, 32, 64, 128, 256, 512, 1024, 2048, 4096].contains val.toNat && s.dev.sqhead == s.dev.sqtail then
      s.modDev fun d => { d with sqsize := val.extractLsb' 0 32 }
    else s)
  else if off = 0x38 then (if val.toNat % 2 ^ 30 = 0 then s.modDev fun d => { d with winbase := val } else s)
  else if off = 0x40 then (if s.allCtxs.isEmpty then s.modDev fun d => { d with pkgid := val.extractLsb' 0 13 } else s)
  else if 0x100 ≤ off ∧ off < 0x120 ∧ off % 8 = 0 then s.writeQuota ((off - 0x100) / 8) val
  else if off = 0x200 then s.writePowercap val
  else if 0x1000 ≤ off ∧ off < 0x1800 ∧ off % 64 = 0x18 then s.writeBudget ((off - 0x1000) / 64) (val.extractLsb' 0 32)
  else s

/-- REGISTER_WRITE: BAR 0, or the kicks and slots of BAR 2 (R94, R427, R428). -/
def execRegisterWrite (bar2 : Bool) (off : BitVec 24) (val : BitVec 64) (s : State) : Host.Outcome State Fault Refusal :=
  let o := off.toNat
  .next (
    if !bar2 then s.writeBar0 o val
    else if o = 0 then s.kickQueue (val.extractLsb' 0 32)
    else if 0x1000 ≤ o ∧ o < 0x1800 then s.writeSlot ((o - 0x1000) / 32) (o % 32) val
    else s)

/-- A word of an island's block (R447). -/
def State.islandWord (s : State) (i off : Nat) : Word :=
  let x := s.island i
  match off with
  | 0x00 => x.volt
  | 0x04 => x.cur
  | 0x08 => x.temp
  | 0x10 => x.energy.extractLsb' 0 32
  | 0x14 => x.energy.extractLsb' 32 32
  | 0x18 => x.budget
  | 0x1C => BitVec.ofNat 32 x.step
  | 0x20 => Config.ceil i
  | _ => 0

/-- DEVSTAT (R428). -/
def Dev.stat (d : Dev) : Word := BitVec.ofNat 32 (d.devstat.toNat + (if d.devstat = 3 then 256 * d.failStep.toNat else 0))

/-- What a host read of BAR 0 gives; every other offset reads 0 (R428). No row of the table is such a read: it changes nothing. -/
def State.readBar0 (s : State) (off : Nat) : DWord :=
  match off with
  | 0x00 => s.dev.stat.zeroExtend 64
  | 0x08 => BitVec.ofNat 64 Config.fdtBase
  | 0x10 => s.dev.sqbase
  | 0x18 => s.dev.sqsize.zeroExtend 64
  | 0x20 => s.dev.sqhead.zeroExtend 64
  | 0x28 => s.dev.jbase
  | 0x30 => BitVec.ofNat 64 s.dev.jseq
  | 0x38 => s.dev.winbase
  | 0x40 => s.dev.pkgid.zeroExtend 64
  | 0x120 => BitVec.ofNat 64 (((List.range 4).map fun d => if (s.die d).quotaRefused then 2 ^ d else 0).sum)
  | 0x200 => s.dev.powercap
  | o =>
    if 0x100 ≤ o ∧ o < 0x120 ∧ o % 8 = 0 then (s.die ((o - 0x100) / 8)).l2quota
    else if 0x400 ≤ o ∧ o < 0x500 ∧ o % 8 = 0 then
      BitVec.ofNat 64 ((SMap.get 0 s.dev.meas ((o - 0x400) / 32)).toNat / 2 ^ (8 * (o % 32)))
    else if 0x1000 ≤ o ∧ o < 0x1800 ∧ o % 4 = 0 then
      let i := (o - 0x1000) / 64
      if o % 64 = 0x10 then (s.island i).energy else (s.islandWord i (o % 64)).zeroExtend 64
    else 0

/-- What a host read of BAR 2 gives: the registers of a handover slot; SQKICK and HOKICK are write-only (R94, R427). -/
def State.readBar2 (s : State) (off : Nat) : DWord :=
  let h := s.hoSlot ((off - 0x1000) / 32)
  if off < 0x1000 ∨ 0x1800 ≤ off then 0
  else if off % 32 = 0 then h.addr
  else if off % 32 = 8 then h.ctl
  else if off % 32 = 0x10 then BitVec.ofNat 64 h.status
  else 0

/-- I2C_READ: DEVSTAT and the island blocks at their BAR 0 offsets; any other offset gets NACK (R448). -/
def execI2cRead (off : BitVec 24) (s : State) : Host.Outcome State Fault Refusal :=
  let o := off.toNat
  .next (s.modDev fun d =>
    if o = 0 then { d with i2c := some d.stat, i2cNack := false }
    else if 0x1000 ≤ o ∧ o < 0x1800 ∧ o % 4 = 0 then
      { d with i2c := some (s.islandWord ((o - 0x1000) / 64) (o % 64)), i2cNack := false }
    else { d with i2c := none, i2cNack := true })

/-- I2C_WRITE: refused with NACK (R448). -/
def execI2cWrite (_off : BitVec 24) (_val : BitVec 32) (s : State) : Host.Outcome State Fault Refusal :=
  .next (s.modDev fun d => { d with i2c := none, i2cNack := true })

/-! ### The memory window (R91, R427) -/

/-- HOST_WINDOW_ACCESS: 8 or 4 bytes at PA WINBASE + off, at the homing slice. An offset beyond 1 TiB reaches nothing. -/
def execHostWindowAccess (off : Nat) (wide : Bool) (wr : Option (BitVec 64)) (s : State) : Host.Outcome State Fault Refusal :=
  let n := if wide then 8 else 4
  let pa := s.dev.winbase.toNat + off
  if 2 ^ 40 < off + n then .next s
  else if !assigned pa || !assigned (pa + n - 1) then .fault (.unassignedPhysical pa)
  else
    let lines := linesOf [(pa, n, pieceEntry pa 0 0 3 0)]
    match wr with
    | some x =>
      .next ((lines.foldl (fun (t : State) (u : LineUse) => t.homeWrite 0 u) s).storeBytes pa (bytesOfNat n x.toNat))
    | none =>
      .next ((lines.foldl (fun (t : State) (u : LineUse) => t.homeRead 0 u) s).modDev fun d =>
        { d with hostRead := BitVec.ofNat 64 (readNat s.mem pa n) })

/-! ### Boot (R277, R433, R440, R441) -/

/-- The logical groves of a die at boot: the 32 lowest physical groves that pass (R277). -/
def bootDie (bad : List Nat) (die : Nat) : Die :=
  let fails := (List.range 34).filter fun p => bad.contains (die * 34 + p)
  let good := ((List.range 34).filter (!fails.contains ·)).take 32
  { groves := (List.range good.length).zip good, bad := fails }

/-- Frames the firmware reserves for the journal and the attestation report behind it (R433, R443). -/
def reservedFrames : Nat := 65

/-- The measurements after step 2: M0 to M3 extended once (R441). -/
def bootMeas : SMap (BitVec 256) :=
  (List.range 4).foldl
    (fun (m : SMap (BitVec 256)) (j : Nat) =>
      SMap.set 0 m j (Config.sha256 (bytesOfNat 32 0 ++ bytesOfNat 32 (Config.bootDigest j).toNat))) []

/-- The seed of the attestation key: SHA-256 of device seed, M1 and M2 (R442). -/
def attestSeed : BitVec 256 :=
  Config.sha256 (bytesOfNat 32 Config.deviceSeed.toNat ++ bytesOfNat 32 (SMap.get 0 bootMeas 1).toNat ++
    bytesOfNat 32 (SMap.get 0 bootMeas 2).toNat)

/-- Step 2 of the boot: the keys derived, reads of the device seed blocked, the measurements taken (R440 to R442). -/
def Dev.derive (d : Dev) : Dev := { d with attSeed := attestSeed, seedBlocked := true, meas := bootMeas }

/-- The package after boot: READY with its groves, journal, keys and measurements, or FAILED at a step (R440 to R442). What the
outside decides stays: the choice list, the inputs and soft errors, the host's code objects, and which free values have been taken. -/
def State.boot (s : State) (jframe failStep : Nat) (bad : List Nat) : State :=
  let r0 := { State.reset with
    freeCtr := s.freeCtr, steps := s.steps, schedule := s.schedule, inputs := s.inputs, soft := s.soft }
  let r := (if failStep = 1 ∨ failStep = 2 then r0 else r0.modDev Dev.derive).modDev fun d => { d with kernels := s.dev.kernels }
  if failStep ≠ 0 then r.modDev fun d => { d with devstat := 3, failStep := BitVec.ofNat 8 failStep }
  else
    let r1 := (List.range 4).foldl (fun (t : State) (d : Nat) => t.modDie d fun _ => bootDie bad d) r
    let r2 := (rangeFrom jframe reservedFrames).foldl (fun (t : State) (f : Nat) => t.setFrameState f 3) r1
    r2.modDev fun d =>
      { d with
        devstat := 2
        jbase := BitVec.ofNat 64 (jframe * 65536) }

/-- COLD_RESET: the journal's place, the step that fails (0 for none) and the groves that fail the test are the outside's; step 1 fails
where the firmware's signature does not verify or the digest of its public key is not `Config.vendorDigest` (R440, R442).
A place that R433 does not allow, or a step that does not exist, is no cold reset. -/
def execColdReset (jframe : BitVec 36) (failStep : BitVec 8) (badGroves : List Nat) (s : State) :
    Host.Outcome State Fault Refusal :=
  .next (
    if framesInHbm jframe.toNat reservedFrames && decide (failStep.toNat ≤ 4) then
      s.boot jframe.toNat failStep.toNat badGroves
    else s)

/-! ### Parts that fail (R74, R437, R439, R445, R446) -/

/-- LANE_FAILURE: the ninth lane takes over, a second failure halves the port (R437). -/
def execLaneFailure (port : Nat) (s : State) : Host.Outcome State Fault Refusal :=
  .next (s.modDev fun d => { d with ports := SMap.modify 0 d.ports port (· + 1) })

/-- LINK_LOSS: the port is routed around; transactions in flight through the fault end by FABRIC_TIMEOUT (R437). -/
def execLinkLoss (port : Nat) (s : State) : Host.Outcome State Fault Refusal :=
  .next (s.modDev fun d => if d.portsDown.contains port then d else { d with portsDown := d.portsDown ++ [port] })

/-- HBM_SCRUB: corrected errors of a frame are counted, saturating, and rows with corrections noted (R33, R439). -/
def execHbmScrub (frame : BitVec 36) (fixes : Nat) (s : State) : Host.Outcome State Fault Refusal :=
  let f := frame.toNat
  .next (
    if inHbm (f * 65536) then
      { s with
        mem := writeNat s.mem (fdtAt f + 4) 1 (min 255 (readNat s.mem (fdtAt f + 4) 1 + fixes))
        dev := { s.dev with rowFixes := SMap.modify 0 s.dev.rowFixes f (· + fixes) } }
    else s)

/-- CHANNEL_SPARING: the spare pseudo-channel of a stack takes over, once (R439). -/
def execChannelSparing (stack : Nat) (s : State) : Host.Outcome State Fault Refusal :=
  .next (if stack < 12 then s.modDev fun d => if d.sparedCh.contains stack then d else { d with sparedCh := d.sparedCh ++ [stack] }
    else s)

/-- L2_WAY_RETIRE: the way holds no line from here on (R74). -/
def execL2WayRetire (die slice setIdx way : Nat) (s : State) : Host.Outcome State Fault Refusal :=
  .next (
    if die < 4 ∧ slice < 64 ∧ setIdx < 768 ∧ way < 16 then
      let key := slice * 768 + setIdx
      let gone := (SMap.get [] (s.die die).l2 key).filter (·.way == way)
      (gone.foldl (fun (t : State) (x : L2Line) => t.invAll x.ctx x.line) s).modDie die fun d =>
        { d with
          l2 := SMap.modify [] d.l2 key fun l => l.filter (·.way != way)
          retiredWays := SMap.modify [] d.retiredWays key fun l => if l.contains way then l else l ++ [way] }
    else s)

/-- The valid leaves of a table at a level, with their addresses: entries that nothing has written are not valid. -/
def State.leavesIn (s : State) (table : Nat) : Nat → Nat → List (Nat × Nat × DWord)
  | _, 0 => []
  | level, fuel + 1 =>
    let n := [2048, 8192, 512, 32].getD level 32
    let listed := ((s.mem.filter fun c => decide (table ≤ c.1) && decide (c.1 < table + 8 * n)).map fun c => (c.1 - table) / 8).eraseDups
    listed.flatMap fun i =>
      let ea := table + 8 * i
      let e := readD s.mem ea
      if !pteV e || malformed e level then []
      else if pteLeaf e then [(ea, level, e)]
      else s.leavesIn (pteNext e) (level + 1) fuel

/-- The leaves of a context. -/
def State.leavesOf (s : State) (c : Ctx) : List (Nat × Nat × DWord) := s.leavesIn (c.base.toNat * 65536) 0 4

/-- A frame covered by a leaf. -/
def leafCovers (f : Nat) (x : Nat × Nat × DWord) : Bool :=
  decide (pteFrame x.2.2 ≤ f) && decide (f < pteFrame x.2.2 + leafSize x.2.1 / 65536)

/-- A leaf with another frame. -/
def pteWithFrame (e : DWord) (f : Nat) : DWord := e.extractLsb' 48 16 ++ BitVec.ofNat 36 f ++ e.extractLsb' 0 12

/-- A frame's bytes copied over another's. -/
def State.copyFrame (s : State) (f f' : Nat) : State :=
  let keep := s.mem.filter fun c => decide (c.1 / 65536 ≠ f')
  let m := (s.mem.filter fun c => decide (c.1 / 65536 = f)).foldl
    (fun (m : List Host.Cell) (c : Host.Cell) => writeByte m (f' * 65536 + c.1 % 65536) c.2) keep
  { s with mem := m }

/-- The contexts that map a frame. -/
def State.mapping (s : State) (f : Nat) : List Ctx := s.allCtxs.filter fun c => (s.leavesOf c).any (leafCovers f)

/-- A MAPPED frame replaced by one of its context's list: shootdown, write-back, copy, leaves, descriptors (R446). -/
def State.replaceFrame (s : State) (f f' : Nat) : State :=
  let s1 := (s.mapping f).foldl (fun (t : State) (c : Ctx) => t.shootAll c.num 0 (2 ^ 54)) s
  let s2 := ((s1.dropFrame f).dropFrame f').copyFrame f f'
  let s3 := s2.allCtxs.foldl
    (fun (t : State) (c : Ctx) =>
      ((s2.leavesOf c).filter (leafCovers f)).foldl
        (fun (v : State) (x : Nat × Nat × DWord) => v.devWrite c.num x.1 (bytesOfNat 8 (pteWithFrame x.2.2 f').toNat)) t) s2
  ((((s3.setRefcnt f' (s.refcnt f)).setFrameCtx f' (s.frameCtx f)).setFrameState f 4).setRefcnt f 0)

/-- A frame whose consumers take ECC_UNCORRECTABLE from here on (R446). -/
def State.poison (s : State) (f : Nat) : State :=
  s.modDev fun d => if d.poisoned.contains f then d else { d with poisoned := d.poisoned ++ [f] }

/-- A frame can be copied now: what the contexts that map it have on its way can be brought home, and no handover of theirs is under
way. -/
def State.canReplace (s : State) (f : Nat) : Bool :=
  (s.mapping f).all (fun c => s.canShoot c.num && !s.hwHeld c.num) && s.frameQuiet f

/-- A soft error repaired in state of a core, counted for a context (R58, R425). -/
def State.repaired (s : State) (ctx core : Nat) : State := s.pmcCtx ctx core 0x29 1

/-- The contexts with a team on a core. -/
def State.ctxsOn (s : State) (core : Nat) : List Nat := ((s.allTeams.filter (·.core == core)).map (·.ctx)).eraseDups

/-- A word of memory whose only copy is lost, by address / 4 (R58). -/
def State.loseWord (s : State) (w : Nat) : State :=
  s.modDev fun d => if d.badWords.contains w then d else { d with badWords := d.badWords ++ [w] }

/-- A soft error strikes (R58): one that ECC corrects, or in a clean copy, is repaired and counted; one in the only copy of data leaves a
word that raises ECC_UNCORRECTABLE for what consumes it. -/
def State.softError (s : State) : SoftErr → State
  | .none => s
  | .corrected ctx core => if (s.ctxsOn core).contains ctx then s.repaired ctx core else s
  | .icache core ctx line =>
    if ((s.core core).iline ctx line).isSome then
      (s.modCore core fun c => { c with icache := c.icache.filter fun i => !(i.line == line && i.ctx == ctx) }).repaired ctx core
    else s
  | .l1 grove w =>
    let x := (s.grove grove).word (w / 32) (w % 32)
    if x.granted && x.dirty != 0 then s.loseWord w
    else if x.valid then
      let core := sliceCore grove (w / 32)
      (s.ctxsOn core).foldl (fun (t : State) (n : Nat) => t.repaired n core) s
    else s
  | .l2 w => if (s.l2Set (w / 32)).any fun l => l.line == w / 32 && l.dirty.getLsbD (w % 32) then s.loseWord w else s
  | .hbm w =>
    let cached := (s.l2Set (w / 32)).any (fun l => l.line == w / 32 && l.dirty.getLsbD (w % 32)) ||
      s.groves.any fun p => (p.2.word (w / 32) (w % 32)).granted && (p.2.word (w / 32) (w % 32)).dirty != 0
    if cached || !inHbm (4 * w) then s else s.loseWord w
  | .reg k scalar n lane =>
    s.modGroup k fun g =>
      let i := if scalar then 4096 + n else n * 32 + lane % 32
      if (if scalar then g.holdsS n else g.holdsV n) && !g.bad.contains i then { g with bad := g.bad ++ [i] } else g
  | .spad team w =>
    s.modTeam team fun t => if 4 * w + 4 ≤ t.w ∧ t.bad.contains w = false then { t with bad := t.bad ++ [w] } else t

/-- FRAME_RETIRE (R446). A frame inside a larger page has no single frame to take its place, so its consumers take
ECC_UNCORRECTABLE as when the list is empty (assumption log 62). -/
def execFrameRetire (frame : BitVec 36) (bad : Bool) (s : State) : Host.Outcome State Fault Refusal :=
  let f := frame.toNat
  .next (
    if !inHbm (f * 65536) || s.frameState f != 1 then s
    else if bad || s.eccBad (f * 65536) 65536 || s.allCtxs.any (fun c => (s.leavesOf c).any fun x => leafCovers f x && x.2.1 != 3) then
      s.poison f
    else if !s.canReplace f then s
    else
      match s.popFrame (s.frameCtx f) (stackOf f) with
      | none => s.poison f
      | some (f', t) => t.replaceFrame f f')

/-- GROVE_RETIRE: a spare takes the logical index; without one the index stays unused (R277, R445). It is done while no team
is resident there and no request is on its way through it. -/
def execGroveRetire (grove : Nat) (s : State) : Host.Outcome State Fault Refusal :=
  .next (
    let die := grove / 32
    let phys := SMap.get 34 (s.die die).groves (grove % 32)
    let busy := s.allTeams.any (fun t => groveOf t.core == grove) || !(s.grove grove).svcq.isEmpty ||
      s.coh.any (fun q => q.grove == grove || q.msgs.any (·.1 == grove)) || s.pend.any (·.grove == grove)
    if 128 ≤ grove ∨ phys = 34 ∨ busy then s
    else
      let d := s.die die
      let spare := ((List.range 34).find? fun p => !d.bad.contains p && !d.groves.any (·.2 == p)).getD 34
      let s1 := (s.modDie die fun d => { d with groves := SMap.set 34 d.groves (grove % 32) spare, bad := d.bad ++ [phys] }).modGrove
        grove fun g => { gens := g.gens }
      let s2 := (rangeFrom (4 * grove) 4).foldl (fun (t : State) (k : Nat) => t.modCore k fun c => { level := c.level }) s1
      { s2 with
        arrays := s2.arrays.filter (·.1 != grove)
        dies := s2.dies.map fun p => (p.1, { p.2 with dir := p.2.dir.filterMap fun x =>
          match x.2 with
          | some (.precise l) =>
            let l' := l.filter (·.grove != grove)
            if l'.isEmpty then none else some (x.1, some (.precise l'))
          | _ => some x }) })

end Sys2Proof.Machine
end

