-- ==== Sys2Proof/Machine/Engines.lean ====
section
/-! DEFINITION. Engine instructions and the steps of the engines; rings, subscriptions and the steps of the roots (R180 to
R197). -/

namespace Sys2Proof.Machine

/-! ### Engine requests -/

/-- The fields of a request in the window (R180). -/
structure ReqImage where
  src : Nat
  dst : Nat
  rows : Nat
  rowlen : Nat
  sstride : Int
  dstride : Int
  bar : Nat
  aux : Nat
  resv : Nat
  arrive : Bool
  nobar : Bool
  dstsp : Bool
  srcsp : Bool
  deriving DecidableEq, Repr

/-- The request at a window offset (R180). -/
def Team.request (t : Team) (off : Nat) : ReqImage :=
  let x := winNat t.win off 32
  let len := bitsN x 112 16
  { src := bitsN x 200 56, dst := bitsN x 144 56, rows := bitsN x 128 16, rowlen := if len = 0 then 65536 else len
    sstride := sextN (bitsN x 88 24) 24, dstride := sextN (bitsN x 64 24) 24, bar := bitsN x 48 16, aux := bitsN x 16 32
    resv := bitsN x 4 12, arrive := bitsN x 3 1 == 1, nobar := bitsN x 2 1 == 1, dstsp := bitsN x 1 1 == 1, srcsp := bitsN x 0 1 == 1 }

/-- Rows at window offsets lie inside the window. -/
def rowsFit (w base rows rowlen : Nat) (stride : Int) : Bool :=
  let last : Int := base + (rows - 1 : Nat) * stride
  decide (base + rowlen ≤ w) && decide (0 ≤ last) && decide (last + rowlen ≤ w)

/-- OP and ETYPE of a copy-reduce (R187). -/
def ReqImage.colOk (q : ReqImage) : Bool :=
  let op := q.aux / 2 ^ 24
  let ety := q.aux / 2 ^ 16 % 256
  q.aux % 65536 == 0 && decide (op ≤ 2) && atomTypes op ety && q.rowlen % (typeW ety / 8) == 0

/-- The checks of one request at issue, in the order of R181; `cls` is 0 copy, 1 gather, 2 collective. -/
def Team.requestCheck (t : Team) (cls off : Nat) : Check :=
  let q := t.request off
  let bad := fun c => Check.raise (raiseOpnd c 1 (BitVec.ofNat 64 off))
  if off % 32 ≠ 0 then bad .misaligned
  else if t.w < off + 32 then bad .spadBounds
  else if t.eccBad off 32 then .raise { code := .eccUncorrectable, va := BitVec.ofNat 64 off }
  else if (q.srcsp && q.rows != 0 && !rowsFit t.w q.src q.rows q.rowlen q.sstride) ||
      (q.dstsp && q.rows != 0 && !rowsFit t.w q.dst q.rows q.rowlen q.dstride) ||
      (cls == 1 && decide (t.w < q.aux + 4 * q.rows)) || (!q.nobar && decide (t.w < q.bar * 16 + 16)) then bad .spadBounds
  else if q.resv != 0 || q.rows == 0 || (q.nobar && (q.bar != 0 || q.arrive)) ||
      (if cls = 0 then q.aux != 0 else if cls = 1 then q.aux % 4 != 0 || !q.dstsp || q.srcsp else !q.colOk) then bad .engineRequest
  else if q.srcsp && q.dstsp then bad .engineRequest
  else if 2 ^ 32 ≤ q.rows * q.rowlen then bad .engineRequest
  else .ok

/-- A request captured at issue (R180). -/
def State.capture (s : State) (cls off id : Nat) : EngReq :=
  let q := s.tm.request off
  { id := id, cls := cls, core := s.g.core, g := s.g.key, team := s.tm.key, ctx := s.g.ctx, pc := s.g.pc,
    src := BitVec.ofNat 64 q.src, dst := BitVec.ofNat 64 q.dst, rows := q.rows, rowlen := q.rowlen, sstride := q.sstride,
    dstride := q.dstride, bar := if q.nobar then none else some (q.bar * 16), arrive := q.arrive, srcsp := q.srcsp,
    dstsp := q.dstsp, idxOff := if cls = 1 then q.aux else 0, op := q.aux / 2 ^ 24, ety := q.aux / 2 ^ 16 % 256,
    off := BitVec.ofNat 24 off }

/-- The counter class of an engine class (R190). -/
def engClass (cls : Nat) : Nat := if cls = 0 then 2 else if cls = 1 then 4 else 5

/-- Entries of a queue of a core's engine. -/
def engRoom (cls : Nat) : Nat := if cls = 0 then 64 else 16

/-- The queue of a class has room for `n` more requests (ENGINE_QUEUE). -/
def State.engQueueCheck (s : State) (cls n : Nat) : Check :=
  waitIf (decide (engRoom cls < (s.engs.filter fun e => e.core == s.g.core && e.cls == cls).length + n)) .engineQueue

/-- Requests put in their queue, each an operation of its class (R190). -/
def State.enqueue (s : State) (cls : Nat) (offs : List Nat) : State :=
  offs.foldl
    (fun (t : State) (off : Nat) =>
      let (k, t1) := t.takeKey
      { (t1.modG fun g => g.addOp (engClass cls) k) with engs := t1.engs ++ [s.capture cls off k] }) s

/-- `kick`, `gth` and `cpyred` (R180, R181). -/
def State.engIssue (s : State) (cls : Nat) (opd : Opd) (offs : List Nat) : Host.Outcome State Fault Refusal :=
  s.issue (firstCheck [operandCheck s.g [opd] [], counterCheck s.g (engClass cls) offs.length, s.atomCheck,
      s.engQueueCheck cls offs.length, firstCheck (offs.map (s.tm.requestCheck cls))]) fun s => s.enqueue cls offs

/-- KICK (R184). -/
def execKick (p : BitVec 7) (n : BitVec 5) (s : State) : Host.Outcome State Fault Refusal :=
  s.engIssue 0 (sOpd p 1) ((List.range (n.toNat + 1)).map fun i => (s.g.sreg p.toNat).toNat + 32 * i)
/-- GTH (R186). -/
def execGth (a : BitVec 7) (ea : Bool) (s : State) : Host.Outcome State Fault Refusal :=
  s.engIssue 1 (sOpd a 1 ea) [(s.g.sreg a.toNat).toNat]
/-- CPYRED (R187). -/
def execCpyred (a : BitVec 7) (ea : Bool) (s : State) : Host.Outcome State Fault Refusal :=
  s.engIssue 2 (sOpd a 1 ea) [(s.g.sreg a.toNat).toNat]

/-- CPYT (R185). -/
def execCpyt (d a : BitVec 7) (ea ed : Bool) (lit : BitVec 32) (s : State) : Host.Outcome State Fault Refusal :=
  let g := s.g
  let tok := g.sreg d.toNat
  let sp := (tok.extractLsb' 17 15).toNat * 16
  let bar := (tok.extractLsb' 2 15).toNat * 16
  let nobar := tok.getLsbD 1
  let out := tok.getLsbD 0
  let bad := fun (c : Code) (off : Nat) => raiseOpnd c 3 (BitVec.ofNat 64 off)
  s.issueTo (firstCheck [operandCheck g [sOpd a 1 ea 2, sOpd d 3 ed] [], counterCheck g 2 1, s.atomCheck, s.engQueueCheck 0 1,
      raiseIf (decide (s.tm.w < sp + lit.toNat)) (bad .spadBounds sp),
      raiseIf (!nobar && decide (s.tm.w < bar + 16)) (bad .spadBounds bar),
      raiseIf (nobar && bar != 0) (bad .engineRequest sp)]) (g.pc + 8) fun s =>
    let (k, s1) := s.takeKey
    let va := s.g.spair a.toNat
    let win : DWord := BitVec.ofNat 64 sp
    let e : EngReq :=
      { id := k, cls := 0, core := s.g.core, g := s.g.key, team := s.tm.key, ctx := s.g.ctx, pc := s.g.pc,
        src := if out then win else va, dst := if out then va else win, rows := 1, rowlen := lit.toNat, sstride := 0, dstride := 0,
        bar := if nobar then none else some bar, arrive := false, srcsp := out, dstsp := !out, idxOff := 0, op := 0, ety := 0,
        off := 0xFFFFFF }
    { (s1.modG fun g => g.addOp 2 k) with engs := s1.engs ++ [e] }

/-! ### Steps of the engines -/

/-- ENGINE_REQUEST_START: the oldest waiting request of a queue starts while fewer than 8 of the core run (R182). -/
def execEngineRequestStart (core cls : Nat) (s : State) : Host.Outcome State Fault Refusal :=
  .next (
    if 8 ≤ (s.engs.filter fun e => e.core == core && e.running).length then s
    else
      match s.engs.find? fun e => e.core == core && e.cls == cls && !e.running && s.ctxRuns e.ctx with
      | some e => { s with engs := s.engs.map fun x => if x.id == e.id then { x with running := true } else x }
      | none => s)

/-- A running request of a core and class that goes on: its context runs, or it has a unit of work to finish (R201). -/
def State.running? (s : State) (core cls i : Nat) : Option EngReq :=
  s.engs.find? fun e => e.id == i && e.core == core && e.cls == cls && e.running && (s.ctxRuns e.ctx || s.engMid e)

/-- ENGINE_CHUNK_DONE: one chunk of a copy (R182). -/
def execEngineChunkDone (core i : Nat) (s : State) : Host.Outcome State Fault Refusal :=
  .next (match s.running? core 0 i with | some e => s.copyChunk e | none => s)
/-- GATHER_BATCH: one batch of a gather (R186). -/
def execGatherBatch (core i : Nat) (s : State) : Host.Outcome State Fault Refusal :=
  .next (match s.running? core 1 i with | some e => s.gatherRows e | none => s)
/-- COPY_REDUCE_UPDATE: one element of a copy-reduce (R187). -/
def execCopyReduceUpdate (core i : Nat) (s : State) : Host.Outcome State Fault Refusal :=
  .next (match s.running? core 2 i with | some e => s.colElem e | none => s)

/-! ### Rings (R192 to R197) -/

/-- RING_PROTOCOL at a ring (R193, R196). -/
def ringRaise (off : Word) : Raise := raiseOpnd .ringProtocol 1 (off.zeroExtend 64)

/-- The request of a subscription breaks the table of R193 or R180. -/
def ReqImage.subBad (q : ReqImage) (slotStride : Int) : Bool :=
  q.resv != 0 || q.rows == 0 || q.arrive || q.nobar || q.bar != 0 || q.srcsp || q.dstsp || q.aux % 65536 != 0 ||
    decide (slotStride < 0)

/-- The fields of a ring that define its slots are out of range (R193 check 3). -/
def Ring.bad (r : Ring) : Bool :=
  r.resv != 0 || r.nslot == 0 || decide (64 < r.nslot) || r.slotsz == 0 || decide (3072 < r.slotsz) || r.slotOff % 128 != 0 ||
    r.barOff % 16 != 0

/-- `rsub` (R193 to R195). -/
def State.rsub (s : State) (store : Bool) (d a : BitVec 7) (ea : Bool) : Host.Outcome State Fault Refusal :=
  let g := s.g
  let ro := g.sreg a.toNat
  let qo := g.sreg (a.toNat + 1)
  let r := s.tm.ring ro.toNat
  let q := s.tm.request qo.toNat
  let slotStride := if store then q.sstride else q.dstride
  let first : DWord := BitVec.ofNat 64 (if store then q.dst else q.src)
  let step : DWord := BitVec.ofInt 64 (sextN (if store then q.src else q.dst) 56)
  let size := 128 * r.slotsz
  let own := firstCheck [operandCheck g [sOpd a 1 ea 2] [sOpd d 3], s.atomCheck, s.objCheckAt ro 16 1, s.objCheckAt qo 32 1,
    raiseIf (r.bad || q.subBad slotStride) (ringRaise ro),
    raiseIf (decide (s.tm.w < r.slotOff + r.nslot * size) || decide (s.tm.w < r.barOff + 16 * r.nslot))
      (raiseOpnd .spadBounds 1 (ro.zeroExtend 64)),
    raiseIf r.active (ringRaise ro),
    raiseIf (decide ((size : Int) < (q.rows - 1 : Nat) * slotStride + q.rowlen)) (ringRaise ro)]
  match s.placeOne (if store then .write else .read) 1 1 first true with
  | .error c => s.issue (firstCheck [own, c]) id
  | .ok (.rem ..) => s.issue (firstCheck [own, .raise (ringRaise ro)]) id
  | .ok (.loc pa _) =>
    s.issue (firstCheck [own, raiseIf (!inHbm pa) (ringRaise ro)]) fun s =>
      let stack := pa / Config.stackSlot
      let mine := s.subs.filter (·.team == s.tm.key)
      match (List.range 8).find? fun h => !mine.any (·.handle == h) with
      | none => s.modG fun g => g.setS d.toNat 1
      | some h =>
        if 64 ≤ (s.subs.filter (·.stack == stack)).length then s.modG fun g => g.setS d.toNat 2
        else
          let count := q.aux / 65536
          let b : Sub :=
            { team := s.tm.key, handle := h, stack := stack, g := s.g.key, pc := s.g.pc, ring := ro.toNat, store := store, next := first,
              step := step, rows := q.rows, rowlen := q.rowlen, memStride := if store then q.dstride else q.sstride,
              slotStride := slotStride.toNat, limited := count != 0, left := count }
          let s1 := s.modTm fun t =>
            t.setRing3 ro.toNat { r with handle := h, kind := store, active := true, take := 0, put := 0, free := r.nslot }
          { (s1.modG fun g => g.setS d.toNat (BitVec.ofNat 32 (16 * h))) with subs := s1.subs ++ [b] }

/-- RSUB_LD (R193) -/
def execRsubLd (d a : BitVec 7) (ea : Bool) (s : State) : Host.Outcome State Fault Refusal := s.rsub false d a ea
/-- RSUB_ST (R193) -/
def execRsubSt (d a : BitVec 7) (ea : Bool) (s : State) : Host.Outcome State Fault Refusal := s.rsub true d a ea

/-- The checks of a ring instruction (R196). -/
def State.ringCheck (s : State) (a : BitVec 7) (ea : Bool) (ok : Ring → Bool) : Check :=
  let ro := s.g.sreg a.toNat
  firstCheck [operandCheck s.g [sOpd a 1 ea] [], s.atomCheck, s.objCheckAt ro 16 1,
    raiseIf (!ok (s.tm.ring ro.toNat)) (ringRaise ro)]

/-- RPUT: slot PUT is handed to the root (R196). -/
def execRput (a : BitVec 7) (ea : Bool) (s : State) : Host.Outcome State Fault Refusal :=
  s.issue (s.ringCheck a ea fun r => r.kind && r.active && r.free != 0) fun s =>
    s.modTm fun t =>
      let o := (s.g.sreg a.toNat).toNat
      let r := t.ring o
      t.setRing3 o { r with put := (r.put + 1) % r.nslot, free := r.free - 1 }

/-- RREL: slot TAKE is freed for refilling (R196). -/
def execRrel (a : BitVec 7) (ea : Bool) (s : State) : Host.Outcome State Fault Refusal :=
  s.issue (s.ringCheck a ea fun r => !r.kind && decide (r.free < r.nslot)) fun s =>
    s.modTm fun t =>
      let o := (s.g.sreg a.toNat).toNat
      let r := t.ring o
      t.setRing3 o { r with take := (r.take + 1) % r.nslot, free := r.free + 1 }

/-- RCANCEL: after the slot in progress, the subscription ends (R196). -/
def execRcancel (a : BitVec 7) (ea : Bool) (s : State) : Host.Outcome State Fault Refusal :=
  let o := (s.g.sreg a.toNat).toNat
  let sub := s.subs.find? fun b => b.team == s.tm.key && b.ring == o
  let busy : Bool := match sub with | some b => s.fab.any (·.owner == b.party) | none => false
  s.issue (firstCheck [s.ringCheck a ea (·.active), waitIf busy .waitc]) fun s =>
    match sub with
    | some b => s.cancelSub b
    | none => s.modTm fun t =>
      let r := t.ring o
      t.setRing3 o (if r.kind then { r with active := false, free := r.nslot, take := r.put } else { r with active := false })

/-! ### Steps of the roots -/

/-- The subscription of a number: team key × 8 + handle. -/
def State.sub? (s : State) (n : Nat) : Option Sub := s.subs.find? fun b => b.team * 8 + b.handle == n

/-- A subscription goes on: its context runs, or its root has a slot to finish (R201). -/
def State.subRuns (s : State) (b : Sub) : Bool := s.ctxRuns (s.subCtx b) || s.subMid b

/-- LOADER_FILL (R195). -/
def execLoaderFill (sub : Nat) (s : State) : Host.Outcome State Fault Refusal :=
  .next (match s.sub? sub with | some b => if !b.store && s.subRuns b then s.loaderFill b else s | none => s)
/-- STORER_DRAIN (R195). -/
def execStorerDrain (sub : Nat) (s : State) : Host.Outcome State Fault Refusal :=
  .next (match s.sub? sub with | some b => if b.store && s.subRuns b then s.storerDrain b else s | none => s)

end Sys2Proof.Machine
end

