-- ==== Sys2Proof/Machine/Fabric.lean ====
section
/-! DEFINITION. The fabric: answers to this package's transactions, and transactions of other packages (R13, R436). -/

namespace Sys2Proof.Machine

/-- What a transaction of this package changes at its target is a write that monitors of this package on that span see (R168). -/
def FabTxn.changes (x : FabTxn) : Bool := x.op != probeOp && (x.write || x.op != 0)

/-- A transaction of this package answered, once. -/
def State.fabAnswer (s : State) (x : FabTxn) (r : BitVec 8 × Word × List Byte) : State :=
  let s1 := { s with fab := s.fab.map fun y => if y = x then { y with sent := true, resp := some r } else y }
  if x.changes && r.1 == 0 then s1.mapGroups (·.monHit (farMon x.pkg x.off) x.size) else s1

/-- The transaction of a number that has no answer yet. -/
def State.openTxn (s : State) (id : Nat) : Option FabTxn := s.fab.find? fun x => x.id == id && x.owner != 0 && x.resp.isNone

/-- Bytes that a successful answer carries. -/
def FabTxn.answerSize (x : FabTxn) : Nat :=
  if x.op = probeOp ∨ 4096 ≤ x.op ∨ (x.op = 0 ∧ x.write = true) then 0 else x.size

/-- FABRIC_RESPONSE: another package's answer; a read or an atomic answers with as many bytes as it asked for. What is sent to this
package itself is answered at its own fabric interface (R13). -/
def execFabricResponse (id : Nat) (code : BitVec 8) (det : BitVec 32) (data : List (BitVec 8)) (s : State) :
    Host.Outcome State Fault Refusal :=
  .next (match s.openTxn id with
    | some x =>
      if x.pkg = s.dev.pkgid.toNat ∨ (code = 0 ∧ data.length ≠ x.answerSize) then s
      else s.fabAnswer x (code, det, data)
    | none => s)

/-- FABRIC_TIMEOUT: no response after 2 ms (R436). -/
def execFabricTimeout (id : Nat) (s : State) : Host.Outcome State Fault Refusal :=
  .next (match s.openTxn id with
    | some x => s.fabAnswer x (BitVec.ofNat 8 Code.fabricTimeout.num, 0, [])
    | none => s)

/-! ### This package as the target (R13, R436) -/

/-- A code and its detail word, as the target reports them. -/
abbrev FabErr := BitVec 8 × Word

/-- A part of an incoming access as it was translated: its physical address, its length, its leaf and the leaf's place. -/
structure InPart where
  pa : Nat
  n : Nat
  e : TlbEntry
  ea : Nat
  word : DWord

/-- The kind of an incoming access. -/
def inKind (write : Bool) (op : Nat) : AccKind := if write || (op != 0 && op != probeOp) then .write else .read

/-- One part of an incoming access translated as a local-region address of the context that carries the tag, by its tables in memory
(R13). -/
def State.inXlat (s : State) (c : Ctx) (kind : AccKind) (off n : Nat) : Except FabErr InPart :=
  let det := fun lv rsn => xdetWord true s.dev.pkgid.toNat lv rsn kind 0
  let err := fun (k : Code) (d : Word) => (Except.error (BitVec.ofNat 8 k.num, d) : Except FabErr InPart)
  match walkTable (readD s.mem) c off with
  | .absent _ lv => err .pageNotPresent (det lv 0)
  | .bad lv => err .pagePermission (det lv rsnMalformed)
  | .leaf ea lv e =>
    if pteHown e then err .handoverViolation (det lv 0)
    else
      let t := tlbOfLeaf c off lv e
      match checkBits t 0 (t.frame * 65536 + off % t.size) kind det with
      | .hit pa _ => .ok { pa := pa, n := n, e := t, ea := ea, word := e }
      | .raise r => err r.code r.xdet
      | _ => err .pagePermission (det lv 0)

/-- The parts of an incoming access, in order. -/
def State.inParts (s : State) (c : Ctx) (kind : AccKind) : List (DWord × Nat) → Except FabErr (List InPart)
  | [] => .ok []
  | (va, n) :: t =>
    match s.inXlat c kind va.toNat n with
    | .error e => .error e
    | .ok p =>
      match s.inParts c kind t with
      | .error e => .error e
      | .ok l => .ok (p :: l)

/-- Some part waits for a handover (R26). -/
def State.inHeld (s : State) (c : Ctx) (l : List (DWord × Nat)) : Bool :=
  l.any fun p => match walkTable (readD s.mem) c p.1.toNat with | .leaf _ _ e => pteHpend e | _ => false

/-- The entries of a walk of memory read through the L2 as class general (R24, R32). -/
def State.inTrace (s : State) (c : Ctx) (va : Nat) : State :=
  (walkPath (readD s.mem) va (c.base.toNat * 65536) 0 4).foldl
    (fun (t : State) (x : Nat × Nat × DWord) => t.homeReadAt c.num x.2.1 8 (pieceEntry x.2.1 c.num 0 3 0)) s

/-- The lines of some parts, under CLASS and HOME of their pages. -/
def partLines (l : List InPart) : List LineUse := linesOf (l.map fun p => (p.pa, p.n, p.e))

/-- The words of an atomic granted to its home grove, as for the grove's own service unit (R91, R160). -/
def State.inGrant (s : State) (c : Ctx) (u : LineUse) : State :=
  let home := homeGrove (u.line * 128)
  let need := u.mask &&& ~~~((s.grove home).wMask u.line)
  if u.home = 3 ∨ need = 0 then s
  else
    (s.sendCoh { id := 0, grove := home, line := u.line, first := (spanOf need).1, n := (spanOf need).2, write := true, cls := u.cls,
                 pinned := s.l2Pins u.home u.line, ctx := c.num, vline := u.vline, g := 0 }).cohFlush

/-- What an atomic at its home grove writes is dirty there, where the grove holds the grant (R84, R91). -/
def State.inMark (s : State) (u : LineUse) : State :=
  let home := homeGrove (u.line * 128)
  if u.home = 3 ∨ u.mask &&& ~~~((s.grove home).wMask u.line) ≠ 0 then s else s.modGrove home (·.dirtyWords u)

/-- An incoming access performed on its parts: its answer and the state (R436). -/
def State.inPerform (s : State) (c : Ctx) (write : Bool) (op size : Nat) (data : List Byte) (l : List InPart) :
    List Byte × State :=
  let us := partLines l
  let bytes := fun (t : State) => l.flatMap fun p => readBytes t.mem p.pa p.n
  let put := fun (t : State) (bs : List Byte) =>
    (l.foldl (fun (a : State × List Byte) (p : InPart) => (a.1.storeBytes p.pa (a.2.take p.n), a.2.drop p.n)) (t, bs)).1
  let writes := fun (t : State) => us.foldl (fun (a : State) (u : LineUse) => a.homeWrite c.num u) t
  if op = probeOp then ([], s)
  else if op = 0 then
    if write then ([], put (writes s) (data.take size))
    else (bytes s, us.foldl (fun (a : State) (u : LineUse) => a.homeRead c.num u) s)
  else if op < 4096 then
    let s1 := us.foldl (fun (t : State) (u : LineUse) => t.inGrant c u) s
    let old := bytes s1
    (old, match rmw ((op - 1) / 16) ((op - 1) % 16) (natOfBytes old) (natOfBytes (data.take 8)) (natOfBytes ((data.drop 8).take 8)) with
      | some v => put (us.foldl State.inMark s1) (bytesOfNat size v)
      | none => s1)
  else
    let v := (rmw ((op - 4096) / 16) ((op - 4096) % 16) (natOfBytes (bytes s)) (natOfBytes (data.take size)) 0).getD 0
    ([], put (writes s) (bytesOfNat size v))

/-- The access is one that a package sends: 1 to 8 flits of 32 bytes, with an operation of R159 or R187 where it has one, or a
check alone. -/
def fabLegal (op size : Nat) : Bool :=
  decide (1 ≤ size) && decide (size ≤ 256) &&
    (op == 0 || op == probeOp ||
      (if op < 4096 then decide ((op - 1) / 16 < 8) && atomTypes ((op - 1) / 16) ((op - 1) % 16) && size == typeW ((op - 1) % 16) / 8
       else decide ((op - 4096) / 16 < 8) && atomTypes ((op - 4096) / 16) ((op - 4096) % 16) && size == typeW ((op - 4096) % 16) / 8))

/-- What an incoming access comes to: nothing yet, where a page of it is under handover, or its answer. It is translated in the one
context that carries its job tag, resident or saved (R13, R26). -/
def State.inAccess (s : State) (write : Bool) (op off : Nat) (tag : BitVec 16) (size : Nat) (data : List Byte) :
    Option ((BitVec 8 × Word × List Byte) × State) :=
  let kind := inKind write op
  let parts := runs (BitVec.ofNat 64 (off % 2 ^ 41)) size
  match s.allCtxs.filter (·.jobTag == tag) with
  | [c] =>
    if s.inHeld c parts then none
    else
      let s1 := parts.foldl (fun (t : State) (p : DWord × Nat) => t.inTrace c p.1.toNat) s
      match s.inParts c kind parts with
      | .error e => some ((e.1, e.2, []), s1)
      | .ok l =>
        let s2 := l.foldl (fun (t : State) (p : InPart) => t.stamp c p.ea p.word) s1
        if op ≠ probeOp ∧ (op ≠ 0 ∨ write = false) ∧ l.any (fun p => s.eccBad p.pa p.n) = true then
          some ((BitVec.ofNat 8 Code.eccUncorrectable.num, 0, []), s2)
        else
          let r := s2.inPerform c write op size data l
          some ((0, 0, r.1), r.2)
  | _ => some ((BitVec.ofNat 8 Code.pagePermission.num, xdetWord true s.dev.pkgid.toNat 7 rsnOutbound kind 0, []), s)

/-- A store of the grove of the party that looks back waits for a grant in the bytes of an access: it is performed first. -/
def State.inBehind (s : State) (tag : BitVec 16) (off size : Nat) : Bool :=
  match s.allCtxs.filter (·.jobTag == tag) with
  | [c] => s.pend.any fun p => p.ctx == c.num && (runs (BitVec.ofNat 64 (off % 2 ^ 41)) size).any fun q =>
      match s.inXlat c .read q.1.toNat q.2 with
      | .ok x => decide (x.pa < p.pa + p.bytes.length) && decide (p.pa < x.pa + x.n)
      | .error _ => false
  | _ => false

/-- A transaction at the fabric interface of this package carried out: one of its own looped back, or one of another package that waits
for a handover (R13). -/
def State.takeTxn (s : State) (x : FabTxn) : State :=
  if x.owner ≠ 0 ∧ s.inBehind x.tag x.off x.size = true then s
  else
    match s.inAccess x.write x.op x.off x.tag x.size x.data with
    | none => s
    | some (r, t) =>
      if x.owner = 0 then
        { t with fab := t.fab.erase x, fabOut := t.fabOut ++ [{ x with sent := true, resp := some r }] }
      else t.fabAnswer x r

/-- The transactions that stand at the fabric interface of this package. -/
def State.looped (s : State) : List FabTxn := s.fab.filter fun x => x.pkg == s.dev.pkgid.toNat && x.resp.isNone

/-- FABRIC_TRANSACTION: an access of another package, or one of this package looped back, is translated and performed, and its answer
goes out (R13, R436). One that meets a page under handover stands at the interface while that lasts. -/
def execFabricTransaction (id : Nat) (wr : Bool) (op off : Nat) (tag : BitVec 16) (size : Nat) (data : List (BitVec 8))
    (s : State) : Host.Outcome State Fault Refusal :=
  .next (
    match s.looped.find? fun x =>
        x.id == id && x.write == wr && x.op == op && x.off == off && x.tag == tag && x.size == size && x.data == data with
    | some x => s.takeTxn x
    | none =>
      if !fabLegal op size then s
      else
        let x : FabTxn :=
          { id := id, owner := 0, write := wr, op := op, pkg := s.dev.pkgid.toNat, off := off, tag := tag, size := size, data := data }
        { s with fab := s.fab ++ [x] }.takeTxn x)

/-- The same, as an event of the machine's own. -/
def FabTxn.event (x : FabTxn) : State → Host.Outcome State Fault Refusal :=
  execFabricTransaction x.id x.write x.op x.off x.tag x.size x.data

end Sys2Proof.Machine
end

