-- ==== Sys2Proof/Machine/Graft.lean ====
section
/-! DEFINITION. The graft table: rule images, what makes one malformed, the default set, and the table instructions (R355,
R361 to R367, R372). -/

namespace Sys2Proof.Machine

/-! ### The rule image (R361, R362) -/

/-- Bits [hi:lo] of a word as a number. -/
def fieldN (w : Word) (hi lo : Nat) : Nat := w.toNat / 2 ^ lo % 2 ^ (hi + 1 - lo)

/-- A word of an image. -/
def imageWord (img : List Word) (i : Nat) : Word := img.getD i 0

/-- VALID. -/
def ruleValid (img : List Word) : Bool := (imageWord img 0).getLsbD 31
/-- CLASS. -/
def ruleClass (img : List Word) : Nat := fieldN (imageWord img 0) 30 29
/-- NPAT. -/
def ruleNpat (img : List Word) : Nat := fieldN (imageWord img 0) 28 27 + 1
/-- NREP. -/
def ruleNrep (img : List Word) : Nat := fieldN (imageWord img 0) 26 25 + 1
/-- The predicates, 0 first. -/
def rulePreds (img : List Word) : List (BitVec 16) :=
  [(imageWord img 1).extractLsb' 0 16, (imageWord img 1).extractLsb' 16 16]

/-- The four descriptors of two words. -/
def descriptors (img : List Word) (i : Nat) : List (BitVec 16) :=
  [(imageWord img i).extractLsb' 0 16, (imageWord img i).extractLsb' 16 16, (imageWord img (i + 1)).extractLsb' 0 16,
    (imageWord img (i + 1)).extractLsb' 16 16]

/-- Captures of a slot. -/
def ruleCaptures (img : List Word) (slot : Nat) : List (BitVec 16) := descriptors img (12 + 2 * slot)
/-- Substitutions of a replacement. -/
def ruleSubsts (img : List Word) (r : Nat) : List (BitVec 16) := descriptors img (23 + 2 * r)

/-- EN of a descriptor. -/
def descEn (d : BitVec 16) : Bool := d.getLsbD 15
/-- VAR. -/
def descVar (d : BitVec 16) : Nat := (d.extractLsb' 12 3).toNat
/-- The width. -/
def descWidth (d : BitVec 16) : Nat := (d.extractLsb' 9 3).toNat + 1
/-- LSB. -/
def descLsb (d : BitVec 16) : Nat := (d.extractLsb' 4 5).toNat

/-- KIND of a predicate (R363). -/
def predKind (p : BitVec 16) : Nat := (p.extractLsb' 12 4).toNat
/-- X. -/
def predX (p : BitVec 16) : Nat := (p.extractLsb' 9 3).toNat
/-- Y. -/
def predY (p : BitVec 16) : Nat := (p.extractLsb' 6 3).toNat
/-- OUT. -/
def predOut (p : BitVec 16) : Nat := (p.extractLsb' 3 3).toNat

/-! ### Malformed images (R364) -/

/-- The opcodes of entries (R353). -/
def entryOp (op : Nat) : Bool := (decide (0xC2 ≤ op) && decide (op ≤ 0xC6)) || (decide (0xC9 ≤ op) && decide (op ≤ 0xCF))

/-- The fields a predicate's kind uses; all of them for an illegal kind, which reason 6 reports. -/
def predUses (k : Nat) : Word :=
  match k with
  | 0 => 0xF000
  | 1 => 0xFFC0
  | 2 => 0xFE38
  | 3 => 0xFE38
  | 4 => 0xFFC0
  | _ => 0xFFF8

/-- A field that a predicate does not use is not 0 (R363). -/
def predReserved (p : BitVec 16) : Bool := p.setWidth 32 &&& ~~~predUses (predKind p) != 0

/-- The variables a predicate reads. -/
def predReads (p : BitVec 16) : List Nat :=
  match predKind p with
  | 1 => [predX p, predY p]
  | 2 => [predX p]
  | 3 => [predX p]
  | 4 => [predX p, predY p]
  | _ => []

/-- The variable a predicate binds. -/
def predBinds (p : BitVec 16) : List Nat := if predKind p = 2 ∨ predKind p = 3 then [predOut p] else []

/-- A condition of R364, by its reason number. -/
def imageFails (img : List Word) (reason : Nat) : Bool :=
  let npat := ruleNpat img
  let nrep := min (ruleNrep img) 3
  let slots := List.range npat
  let reps := List.range nrep
  let zero := fun (i : Nat) => imageWord img i == 0
  let descs := (slots.flatMap (ruleCaptures img)) ++ reps.flatMap (ruleSubsts img)
  let vars := fun (l : List (BitVec 16)) => (l.filter descEn).map descVar
  let captured := vars (slots.flatMap (ruleCaptures img))
  let preds := rulePreds img
  match reason with
  | 1 =>
    fieldN (imageWord img 0) 24 24 != 0 || fieldN (imageWord img 0) 15 0 != 0 || !([3, 29, 30, 31].all zero) ||
      !((rangeFrom npat (4 - npat)).all fun i => zero (4 + i) && zero (8 + i) && zero (12 + 2 * i) && zero (13 + 2 * i)) ||
      !((rangeFrom nrep (3 - nrep)).all fun r => zero (20 + r) && zero (23 + 2 * r) && zero (24 + 2 * r)) ||
      (descs.any fun d => d.extractLsb' 0 4 != 0) || preds.any predReserved
  | 2 => ruleClass img == 3 || npat == 1 || ruleNrep img == 4
  | 3 =>
    (slots.any fun i => fieldN (imageWord img (8 + i)) 31 24 != 0xFF || !entryOp (fieldN (imageWord img (4 + i)) 31 24)) ||
      reps.any fun r => !entryOp (fieldN (imageWord img (20 + r)) 31 24)
  | 4 => descs.any fun d => decide (24 < descLsb d + descWidth d)
  | 5 =>
    let outs := preds.flatMap predBinds
    let used := vars (reps.flatMap (ruleSubsts img)) ++ (List.range 8).filter fun v => (imageWord img 0).getLsbD (16 + v)
    let out0 := predBinds (preds.getD 0 0)
    (used.any fun v => !(captured ++ outs).contains v) || ((predReads (preds.getD 0 0)).any fun v => !captured.contains v) ||
      ((predReads (preds.getD 1 0)).any fun v => !(captured ++ out0).contains v) || outs.any fun v => captured.contains v
  | 6 => preds.any fun p => decide (5 ≤ predKind p)
  | _ =>
    let t := imageWord img 2
    (t.getLsbD 31 && t.extractLsb' 0 31 != 0) || decide (0x7F800000 < (t.extractLsb' 0 31).toNat) || (t != 0 && ruleClass img != 2)

/-- The reason of a malformed image: the lowest that holds; 0 for a well-formed one. -/
def imageReason (img : List Word) : Nat := ((rangeFrom 1 7).find? (imageFails img)).getD 0

/-! ### The default set (R372) -/

/-- An image from its words that are not 0. -/
def imageOf (l : List (Nat × Word)) : List Word := (List.range 32).map fun i => SMap.get 0 l i

/-- The words of the rules at offsets 1 and 2 behind HDR and PRED, as R372 prints them for offset 1. -/
def scaleRule : List (Nat × Word) :=
  [(4, 0xC3000000), (5, 0xCC000000), (8, 0xFFC00307), (9, 0xFF803E1F), (12, 0x98308910), (13, 0x0000ACA0), (14, 0xB73088E0),
    (15, 0x0000C650), (20, 0xCC000000), (23, 0x98E0B730), (24, 0xD600C650)]

/-- The four default rules (R372). -/
def defaultRule : Nat → List Word
  | 0 => imageOf [(0, 0x88010000), (1, 0x00001040), (4, 0xC4000000), (5, 0xCA000000), (8, 0xFFF801FF), (9, 0xFFFFC1FF),
      (12, 0x989088E0), (14, 0x00008890), (20, 0xCA000000), (23, 0x00009890)]
  | 1 => imageOf ((0, 0xA8010000) :: (1, 0x34281040) :: scaleRule)
  | 2 => imageOf ((0, 0xC8010000) :: (1, 0x24281040) :: scaleRule)
  | _ => imageOf [(0, 0xC8000000), (4, 0xCC000000), (5, 0xCC000000), (8, 0xFF803E1F), (9, 0xFF803E1F), (12, 0x98E08730),
      (13, 0x0000A650), (14, 0x98E08730), (15, 0x0000A650), (20, 0xCC000001), (23, 0x98E08730), (24, 0x0000A650)]

/-! ### The table instructions (R365 to R367) -/

/-- Entries from `e` on written in one step, their MATCHCNT 0 (R365). -/
def Ctx.loadRules (c : Ctx) (e : Nat) (l : List (List Word)) : Ctx :=
  (l.zip (rangeFrom e l.length)).foldl
    (fun (c : Ctx) (p : List Word × Nat) =>
      { c with graft := SMap.set [] c.graft p.2 p.1, matchCnt := SMap.set 0 c.matchCnt p.2 0 }) c

/-- The words of 128 bytes. -/
def wordsOf (bs : List Byte) : List Word := (List.range 32).map fun i => BitVec.ofNat 32 (natOfBytes ((bs.drop (4 * i)).take 4))

/-- The first malformed image, as GRAFT_TABLE reports it (R365, R375). -/
def malformedCheck (l : List (List Word)) : Check :=
  match (l.zip (List.range l.length)).find? fun p => imageReason p.1 != 0 with
  | some p => .raise { code := .graftTable, info := BitVec.ofNat 12 (imageReason p.1 + 16 * p.2) }
  | none => .ok

/-- `rwload sN, [sA], e` (R365). -/
def execRwload (d a : BitVec 7) (n : BitVec 6) (ea ed : Bool) (s : State) : Host.Outcome State Fault Refusal :=
  let k := (s.g.sreg d.toNat).toNat
  let opds := operandCheck s.g [sOpd a 4 ea 2, sOpd d 3 ed] []
  let range := raiseIf (k == 0 || decide (64 - n.toNat < k)) (illegal 5 3)
  match firstCheck [opds, range, s.atomCheck] with
  | .ok =>
    let ps := s.placeAll .read 128 4 ((List.range k).map fun i => (i, s.g.spair a.toNat + BitVec.ofNat 64 (128 * i)))
    let images := (List.range k).map fun i => wordsOf (s.placeBytes ps.1 i 128)
    s.issue (firstCheck [s.laneCheck ps false 0 128 fun _ => [], raiseIf (s.anyEcc ps.1 128) { code := .eccUncorrectable },
        malformedCheck images]) fun s => (s.l1Access false (localLines ps.1 128)).modCx (·.loadRules n.toNat images)
  | c => s.issue c id

/-- `rwload.def e` (R365). -/
def execRwloadDef (n : BitVec 6) (s : State) : Host.Outcome State Fault Refusal :=
  s.issue .ok fun s => s.modCx (·.loadRules n.toNat ((List.range 4).map defaultRule))

/-- An image with VALID = 0. -/
def invalidated (img : List Word) : List Word := (imageWord img 0 &&& 0x7FFFFFFF) :: img.drop 1

/-- `rwflush` (R366). -/
def execRwflush (s : State) : Host.Outcome State Fault Refusal :=
  s.issue .ok fun s => s.modCx fun c => { c with graft := c.graft.map fun p => (p.1, invalidated p.2) }

/-- The counter a selector names (R367). -/
def Ctx.statistic (c : Ctx) (k : Nat) : Word := if k < 64 then SMap.get 0 c.matchCnt k else SMap.get 0 c.graftCnt (k - 64)

/-- A counter set to 0. -/
def Ctx.clearStatistic (c : Ctx) (k : Nat) : Ctx :=
  if k < 64 then { c with matchCnt := SMap.set 0 c.matchCnt k 0 } else { c with graftCnt := SMap.set 0 c.graftCnt (k - 64) 0 }

/-- `rwstat sD, k` (R367). -/
def execRwstat (d func : BitVec 7) (fl : Bool) (s : State) : Host.Outcome State Fault Refusal :=
  s.issue (operandCheck s.g [] [sOpd d 3]) fun s =>
    let x := s.cx.statistic func.toNat
    let s1 := if fl then s.modCx (·.clearStatistic func.toNat) else s
    s1.modG fun g => g.setS d.toNat x

end Sys2Proof.Machine
end

