-- ==== Sys2Proof/Machine/Scalar.lean ====
section
/-! DEFINITION. Scalar arithmetic, logic, compares and moves (R280 to R286). -/

namespace Sys2Proof.Machine

/-- A scalar instruction of two sources: s[d] := f a b, SCC by `scc` (R283). -/
def State.scalar2 (s : State) (d a b : BitVec 7) (ea eb : Bool) (f : Word → Word → Word)
    (scc : Bool → Word → Word → Bool := fun c _ _ => c) : Host.Outcome State Fault Refusal :=
  s.issue (operandCheck s.g [sOpd a 1 ea, sOpd b 2 eb] [sOpd d 3]) fun s =>
    s.modG fun g =>
      (g.setS d.toNat (f (g.sreg a.toNat) (g.sreg b.toNat))).setScc (scc g.scc (g.sreg a.toNat) (g.sreg b.toNat))

/-- A scalar instruction of one source. -/
def State.scalar1 (s : State) (d a : BitVec 7) (ea : Bool) (f : Word → Word) (scc : Bool → Word → Bool := fun c _ => c) :
    Host.Outcome State Fault Refusal :=
  s.issue (operandCheck s.g [sOpd a 1 ea] [sOpd d 3]) fun s =>
    s.modG fun g => (g.setS d.toNat (f (g.sreg a.toNat))).setScc (scc g.scc (g.sreg a.toNat))

/-- A scalar instruction without a source: s[d] := f g. -/
def State.scalar0 (s : State) (d : BitVec 7) (f : Group → Word) : Host.Outcome State Fault Refusal :=
  s.issue (operandCheck s.g [] [sOpd d 3]) fun s => s.modG fun g => g.setS d.toNat (f g)

/-- A compare: s[d] := c and SCC := c (R286). -/
def State.scalarCmp (s : State) (d a b : BitVec 7) (ea eb : Bool) (c : Word → Word → Bool) :
    Host.Outcome State Fault Refusal :=
  s.scalar2 d a b ea eb (fun x y => boolWord (c x y)) (fun _ x y => c x y)

/-- The high word of a signed product (R283). -/
def mulHighI (a b : Word) : Word := BitVec.ofInt 32 (a.toInt * b.toInt / 2 ^ 32)
/-- The high word of an unsigned product (R283). -/
def mulHighN (a b : Word) : Word := BitVec.ofNat 32 (a.toNat * b.toNat / 2 ^ 32)
/-- `a × 2^n mod 2^32`, 0 if n ≥ 32 (R283). -/
def shiftL (a : Word) (n : Nat) : Word := BitVec.ofNat 32 (if n < 32 then a.toNat * 2 ^ n else 0)
/-- `floor(zext(a) / 2^n)`, 0 if n ≥ 32 (R283). -/
def shiftR (a : Word) (n : Nat) : Word := BitVec.ofNat 32 (if n < 32 then a.toNat / 2 ^ n else 0)
/-- `floor(sext(a) / 2^min(n, 31))` (R283). -/
def shiftA (a : Word) (n : Nat) : Word := BitVec.ofInt 32 (a.toInt / 2 ^ min n 31)
/-- a rotated right by n bits (R284). -/
def rotR (a : Word) (n : Nat) : Word := a.rotateRight n

/-- NOP has no effect (R129). -/
def execNop (s : State) : Host.Outcome State Fault Refusal := s.issue .ok id
/-- SADD (R283, R282). -/
def execSadd (d a b : BitVec 7) (ea eb : Bool) (s : State) : Host.Outcome State Fault Refusal :=
  s.scalar2 d a b ea eb (· + ·) (fun _ x y => carryOut x y)
/-- SADDI (R283, R282). -/
def execSaddi (d a : BitVec 7) (imm : BitVec 9) (ea : Bool) (s : State) : Host.Outcome State Fault Refusal :=
  s.scalar1 d a ea (· + imm.signExtend 32) (fun _ x => carryOut x (imm.signExtend 32))
/-- SSUB (R283, R282). -/
def execSsub (d a b : BitVec 7) (ea eb : Bool) (s : State) : Host.Outcome State Fault Refusal :=
  s.scalar2 d a b ea eb (· - ·) (fun _ x y => borrowOut x y)
/-- SMUL (R283). -/
def execSmul (d a b : BitVec 7) (ea eb : Bool) (s : State) : Host.Outcome State Fault Refusal :=
  s.scalar2 d a b ea eb (· * ·)
/-- SMULHI (R283). -/
def execSmulhI (d a b : BitVec 7) (ea eb : Bool) (s : State) : Host.Outcome State Fault Refusal :=
  s.scalar2 d a b ea eb mulHighI
/-- SMULHN (R283). -/
def execSmulhN (d a b : BitVec 7) (ea eb : Bool) (s : State) : Host.Outcome State Fault Refusal :=
  s.scalar2 d a b ea eb mulHighN
/-- SAND (R283). -/
def execSand (d a b : BitVec 7) (ea eb : Bool) (s : State) : Host.Outcome State Fault Refusal :=
  s.scalar2 d a b ea eb (· &&& ·)
/-- SOR (R283). -/
def execSor (d a b : BitVec 7) (ea eb : Bool) (s : State) : Host.Outcome State Fault Refusal :=
  s.scalar2 d a b ea eb (· ||| ·)
/-- SXOR (R283). -/
def execSxor (d a b : BitVec 7) (ea eb : Bool) (s : State) : Host.Outcome State Fault Refusal :=
  s.scalar2 d a b ea eb (· ^^^ ·)
/-- SANDN (R283). -/
def execSandn (d a b : BitVec 7) (ea eb : Bool) (s : State) : Host.Outcome State Fault Refusal :=
  s.scalar2 d a b ea eb (fun x y => x &&& ~~~y)
/-- SSHL (R283). -/
def execSshl (d a b : BitVec 7) (ea eb : Bool) (s : State) : Host.Outcome State Fault Refusal :=
  s.scalar2 d a b ea eb (fun x y => shiftL x y.toNat)
/-- SSHR (R283). -/
def execSshr (d a b : BitVec 7) (ea eb : Bool) (s : State) : Host.Outcome State Fault Refusal :=
  s.scalar2 d a b ea eb (fun x y => shiftR x y.toNat)
/-- SSRA (R283). -/
def execSsra (d a b : BitVec 7) (ea eb : Bool) (s : State) : Host.Outcome State Fault Refusal :=
  s.scalar2 d a b ea eb (fun x y => shiftA x y.toNat)
/-- SSHI_SHL (R284). -/
def execSshiShl (d a : BitVec 7) (n : BitVec 5) (ea : Bool) (s : State) : Host.Outcome State Fault Refusal :=
  s.scalar1 d a ea (shiftL · n.toNat)
/-- SSHI_SHR (R284). -/
def execSshiShr (d a : BitVec 7) (n : BitVec 5) (ea : Bool) (s : State) : Host.Outcome State Fault Refusal :=
  s.scalar1 d a ea (shiftR · n.toNat)
/-- SSHI_SRA (R284). -/
def execSshiSra (d a : BitVec 7) (n : BitVec 5) (ea : Bool) (s : State) : Host.Outcome State Fault Refusal :=
  s.scalar1 d a ea (shiftA · n.toNat)
/-- SSHI_ROR (R284). -/
def execSshiRor (d a : BitVec 7) (n : BitVec 5) (ea : Bool) (s : State) : Host.Outcome State Fault Refusal :=
  s.scalar1 d a ea (rotR · n.toNat)
/-- SMINI (R283). -/
def execSminI (d a b : BitVec 7) (ea eb : Bool) (s : State) : Host.Outcome State Fault Refusal :=
  s.scalar2 d a b ea eb (fun x y => if x.toInt ≤ y.toInt then x else y)
/-- SMAXI (R283). -/
def execSmaxI (d a b : BitVec 7) (ea eb : Bool) (s : State) : Host.Outcome State Fault Refusal :=
  s.scalar2 d a b ea eb (fun x y => if x.toInt ≤ y.toInt then y else x)
/-- SMINN (R283). -/
def execSminN (d a b : BitVec 7) (ea eb : Bool) (s : State) : Host.Outcome State Fault Refusal :=
  s.scalar2 d a b ea eb (fun x y => if x.toNat ≤ y.toNat then x else y)
/-- SMAXN (R283). -/
def execSmaxN (d a b : BitVec 7) (ea eb : Bool) (s : State) : Host.Outcome State Fault Refusal :=
  s.scalar2 d a b ea eb (fun x y => if x.toNat ≤ y.toNat then y else x)
/-- SCMPEQ (R286). -/
def execScmpeq (d a b : BitVec 7) (ea eb : Bool) (s : State) : Host.Outcome State Fault Refusal :=
  s.scalarCmp d a b ea eb cmpEq
/-- SCMPNE (R286). -/
def execScmpne (d a b : BitVec 7) (ea eb : Bool) (s : State) : Host.Outcome State Fault Refusal :=
  s.scalarCmp d a b ea eb cmpNe
/-- SCMPLTI (R286). -/
def execScmpltI (d a b : BitVec 7) (ea eb : Bool) (s : State) : Host.Outcome State Fault Refusal :=
  s.scalarCmp d a b ea eb cmpLtI
/-- SCMPLEI (R286). -/
def execScmpleI (d a b : BitVec 7) (ea eb : Bool) (s : State) : Host.Outcome State Fault Refusal :=
  s.scalarCmp d a b ea eb cmpLeI
/-- SCMPLTN (R286). -/
def execScmpltN (d a b : BitVec 7) (ea eb : Bool) (s : State) : Host.Outcome State Fault Refusal :=
  s.scalarCmp d a b ea eb cmpLtN
/-- SCMPLEN (R286). -/
def execScmpleN (d a b : BitVec 7) (ea eb : Bool) (s : State) : Host.Outcome State Fault Refusal :=
  s.scalarCmp d a b ea eb cmpLeN
/-- SSEL: a if SCC = 1, else b (R283). -/
def execSsel (d a b : BitVec 7) (ea eb : Bool) (s : State) : Host.Outcome State Fault Refusal :=
  s.issue (operandCheck s.g [sOpd a 1 ea, sOpd b 2 eb] [sOpd d 3]) fun s =>
    s.modG fun g => g.setS d.toNat (if g.scc then g.sreg a.toNat else g.sreg b.toNat)
/-- SLI: the literal word; the instruction is two words long (R285, R142). -/
def execSli (d : BitVec 7) (lit : BitVec 32) (s : State) : Host.Outcome State Fault Refusal :=
  s.issueTo (operandCheck s.g [] [sOpd d 3]) (s.g.pc + 8) fun s => s.modG fun g => g.setS d.toNat lit
/-- SMOVI (R285). -/
def execSmovi (d : BitVec 7) (imm : BitVec 9) (s : State) : Host.Outcome State Fault Refusal :=
  s.scalar0 d fun _ => imm.signExtend 32
/-- SMOV (R283). -/
def execSmov (d a : BitVec 7) (ea : Bool) (s : State) : Host.Outcome State Fault Refusal := s.scalar1 d a ea id
/-- SPOPC (R283). -/
def execSpopc (d a : BitVec 7) (ea : Bool) (s : State) : Host.Outcome State Fault Refusal :=
  s.scalar1 d a ea fun x => BitVec.ofNat 32 (popcount 32 x.toNat)
/-- SCLZ (R283). -/
def execSclz (d a : BitVec 7) (ea : Bool) (s : State) : Host.Outcome State Fault Refusal :=
  s.scalar1 d a ea fun x => BitVec.ofNat 32 (clz 32 x.toNat)

end Sys2Proof.Machine
end

