-- ==== Sys2Proof/Machine/Tasks.lean ====
section
/-! DEFINITION. `cancel` and `tspawn` (R253, R293 to R295). -/

namespace Sys2Proof.Machine

/-! ### Cancel -/

/-- A team-level cancel of a launch's team, a card's record or a pool's TCB: whether the unit existed, and what follows
(R293). -/
def State.cancelMember (s : State) (ctx : Nat) (c : Ctx) (u : UnitRec) (j : Nat) : Bool × State :=
  let here := s.allTeams.find? fun t => t.ctx == ctx && t.unit == u.key && t.idx.toNat == j
  let live := here.filter fun t => !s.teamDone t
  match u.def_.kind with
  | 2 =>
    match live with
    | some t => (true, s.cancelTeam t.key)
    | none =>
      if u.cancelled || u.def_.cap < j then (false, s)
      else
        match s.tcbRead c u j with
        | none => (false, s.poolFail ctx u.key)
        | some x => if tcbStatus x == 1 || tcbStatus x == 2 then (true, s.taskCancel ctx u.key j) else (false, s)
  | k =>
    if (SMap.get none u.ended j).isSome then (false, s)
    else
      match live with
      | some t => (true, s.cancelTeam t.key)
      | none =>
        if u.cancelled || here.isSome || (if k = 0 then u.def_.teams else u.def_.nrec) ≤ j then (false, s)
        else if k = 0 then (true, s.endMember ctx u.key j .cancelled)
        else (true, s.modUnit ctx u.key fun u => { u with cancelRecs := j :: u.cancelRecs.filter (· != j) })

/-- The units of some condition cancelled. -/
def State.cancelUnits (s : State) (ctx : Nat) (p : UnitRec → Bool) : State :=
  match s.ctx? ctx with
  | none => s
  | some c => (c.units.filter p).foldl (fun (t : State) (u : UnitRec) => t.cancelUnit ctx u.key) s

/-- A cancel of level `m` with identifier `x` by the focused group: whether the unit existed, and the state (R293). -/
def State.cancelAct (s : State) (m : Nat) (x : Word) : Bool × State :=
  let c := s.cx
  let n := c.num
  let slot : BitVec 7 := x.extractLsb' 25 7
  let num := (x.extractLsb' 0 16).toNat
  let job := (s.unitOfGroup s.g).bind fun u => c.job? u.job
  match m with
  | 0 =>
    match c.units.find? (·.slot == some slot) with
    | none => (false, s)
    | some u => s.cancelMember n c u (x.extractLsb' 5 20).toNat
  | 1 =>
    match c.units.find? (·.slot == some slot) with
    | none => (false, s)
    | some u => (u.complete.isNone, s.cancelUnit n u.key)
  | 2 =>
    match job with
    | none => (false, s)
    | some j =>
      if num < j.graphPhase.length && !j.graphDone.contains num then
        (true, s.cancelUnits n fun u => u.job == j.seq && u.graph == num)
      else (false, s)
  | 3 =>
    match job with
    | none => (false, s)
    | some j =>
      if j.phase ≤ num && num < j.phases then (true, s.cancelUnits n fun u => u.job == j.seq && u.phase == num)
      else (false, s)
  | _ =>
    match job with
    | none => (false, s)
    | some j => (true, s.cancelUnits n fun u => u.job == j.seq)

/-- CANCEL: it completes, SCC says whether the unit existed, and then the unit's groups stop, the issuing one among them
when it lies inside (R253, R293). -/
def execCancel (p : BitVec 7) (m : BitVec 5) (s : State) : Host.Outcome State Fault Refusal :=
  match firstCheck [operandCheck s.g [sOpd p 1] [] (raiseIf (decide (5 ≤ m.toNat)) (illegal 0)), waitIf (s.hwHeld s.cx.num) .dependency] with
  | .ok =>
    let x := s.g.sreg p.toNat
    let found := (s.cancelAct m.toNat x).1
    let s1 := (s.retire (s.g.pc + 4)).modG fun g => { g with scc := found }
    .next ((s1.cancelAct m.toNat x).2.settle s.cx.num)
  | c => s.issue c id

/-! ### Task spawn -/

/-- The pool of the issuing group's team (R294). -/
def State.poolOf (s : State) : Option UnitRec :=
  match s.unitOf s.tm with
  | some u => if u.def_.kind = 2 then some u else none
  | none => none

/-- The status word of `tspawn` written, with SCC (R295). -/
def State.spawnReport (s : State) (d : BitVec 7) (i code : Nat) : State :=
  s.modG fun g => { g.setS d.toNat (BitVec.ofNat 32 (i * 4096 + code)) with scc := code == 0 }

/-- An access of `n` bytes of the issuing group on behalf of `tspawn` (R294): its physical address and translation. -/
def State.spawnAccess (s : State) (va : DWord) (kind : AccKind) : Except Check (Nat × TlbEntry) :=
  match s.placeOne kind 1 4 va true with
  | .error c => .error c
  | .ok (.loc pa e) =>
    if kind = .read ∧ s.eccBad pa 4 then .error (.raise { code := .eccUncorrectable, va := va })
    else .ok (pa, e)
  | .ok (.rem p _ _) =>
    .error (.raise { code := .pagePermission, va := va, xdet := xdetWord false p 7 rsnOutbound kind 0 })

/-- The address of an access of `tspawn` that raises stands in %xvalo and %xvahi, whatever its code (R294). -/
def State.noteVa (s : State) : Check → State
  | .raise r => s.modG fun g => { g with xva := r.va }
  | _ => s

/-- The child made: the stack popped, the TCB written, the live count raised, the child queued when its PEND is 0 (R294). -/
def State.spawn (s : State) (u : UnitRec) (w img i pa : Nat) (e : TlbEntry) (d : BitVec 7) : State :=
  let n := s.cx.num
  match s.hwWrite s.cx (u.def_.descVA.toNat + 20) (bytesOfNat 4 (w - 1)) with
  | none => s.poolFail n u.key
  | some s1 =>
    let st := if 0 < bitsN img 320 16 then 1 else 2
    let s2 := ((linesOf [(pa, 64, e)]).foldl (fun (t : State) (l : LineUse) => t.homeWrite n l) s1).storeBytes pa
      (bytesOfNat 64 (tcbSetStatus img st))
    let s3 := s2.modUnit n u.key fun u =>
      { u with live := u.live + 1, readyQ := if st = 2 then readyInsert (s2.tcbPrio s.cx u) i u.readyQ else u.readyQ }
    s3.spawnReport d i 0

/-- TSPAWN (R294, R295). -/
def execTspawn (d a : BitVec 7) (ea : Bool) (s : State) : Host.Outcome State Fault Refusal :=
  let off := (s.g.sreg a.toNat).toNat
  let opds := operandCheck s.g [sOpd a 1 ea] [sOpd d 3]
  match s.poolOf with
  | none => s.issue opds fun s => s.spawnReport d 0 3
  | some u =>
    match firstCheck [opds, spadCheck s.tm.w off 64 16 1, s.tm.soundCheck off 64, waitIf (s.hwHeld s.cx.num) .dependency] with
    | .ok =>
      let img := winNat s.tm.win off 64
      if tcbMalformed img then s.issue .ok fun s => s.spawnReport d 0 2
      else
        match s.hwNat s.cx (u.def_.descVA.toNat + 20) 4 with
        | none => .next ((s.poolFail s.cx.num u.key).settle s.cx.num)
        | some w =>
          let ftop := w % 2 ^ 20
          if ftop = 0 then s.issue .ok fun s => s.spawnReport d 0 1
          else
            match waitIf (firstCheck [s.atomCheck, s.orderCheck 3 true true] != .ok) .dependency with
            | .ok =>
              match s.spawnAccess (u.def_.fsBase + BitVec.ofNat 64 (4 * (ftop - 1))) .read with
              | .error c => (s.noteVa c).issue c id
              | .ok (pa, _) =>
                let i := readNat s.mem pa 4 % 2 ^ 20
                match s.spawnAccess (u.def_.tcbBase + BitVec.ofNat 64 (64 * i)) .write with
                | .error c => (s.noteVa c).issue c id
                | .ok (pa', e) => s.issue .ok fun s => s.spawn u w img i pa' e d
            | c => s.issue c id
    | c => s.issue c id

end Sys2Proof.Machine
end

