-- ==== Sys2Proof/Machine/Trace.lean ====
section
/-! DEFINITION. Sampling, the branch-and-mask trace and counters: rings, samples, tagged records, trace control (R400 to R414,
R425). -/

namespace Sys2Proof.Machine

/-! ### Delbeing rings (R401) -/

/-- A ring of a context: SIZE, WR and RD; none when the ring is invalid or its header cannot be read (R400). -/
def State.ring? (s : State) (c : Ctx) (hdr : Nat) : Option (Nat × Nat × Nat) :=
  if hdr = 0 ∨ hdr % 64 ≠ 0 then none
  else
    match s.hwNat c hdr 4, s.hwNat c (hdr + 4) 4, s.hwNat c (hdr + 8) 4 with
    | some wr, some rd, some size =>
      if 16 ≤ size ∧ size ≤ 2 ^ 24 ∧ size = 2 ^ size.log2 then some (size, wr, rd) else none
    | _, _, _ => none

/-- What writing a record comes to. -/
inductive RingRes where
  /-- the ring is invalid, or a write fails (R400) -/
  | dropped
  | full
  | written (s : State)

/-- One record written, then WR (R401). -/
def State.ringPut (s : State) (c : Ctx) (hdr : Nat) (bs : List Byte) : RingRes :=
  match s.ring? c hdr with
  | none => .dropped
  | some (size, wr, rd) =>
    if size ≤ (wr + 2 ^ 32 - rd) % 2 ^ 32 then .full
    else
      match s.hwWrite c (hdr + 64 + 64 * (wr % size)) bs with
      | none => .dropped
      | some s1 =>
        match s1.hwWrite c hdr (bytesOfNat 4 ((wr + 1) % 2 ^ 32)) with
        | none => .dropped
        | some s2 => .written s2

/-- A sample or tagged record: dropped and counted in LOST when the ring is full, in SAMPLE_LOST when there is none (R400,
R401). -/
def State.sampleRecord (s : State) (ctx core : Nat) (x : Nat) : State :=
  match s.ctx? ctx with
  | none => s
  | some c =>
    let hdr := c.smpring.toNat
    match s.ringPut c hdr (bytesOfNat 64 x) with
    | .written t => t
    | .dropped => s.pmcCtx ctx core 0x2E 1
    | .full =>
      match s.hwNat c (hdr + 12) 4 with
      | some l => (s.hwWrite c (hdr + 12) (bytesOfNat 4 (min (l + 1) 0xFFFFFFFF))).getD s
      | none => s

/-! ### The sampler (R403 to R407) -/

/-- One step of the LFSR (R403). -/
def lfsrStep (l : BitVec 16) : BitVec 16 :=
  let f := (l.getLsbD 15 ^^ l.getLsbD 13) ^^ (l.getLsbD 12 ^^ l.getLsbD 10)
  (l <<< 1) ||| (if f then 1 else 0)

/-- The LFSR of a slot; 0 is never a value of it, so an unlisted slot stands at its reset value (R403). -/
def State.lfsr (s : State) (core slot : Nat) : BitVec 16 :=
  let l := SMap.get 0 (s.core core).lfsr slot
  if l = 0 then 0xB400#16 ^^^ BitVec.ofNat 16 (core * 4 + slot) else l

/-- The LFSR read: it has stepped once per core cycle since it was last read, a number of times that the model leaves free. -/
def State.readLfsr (s : State) (core slot : Nat) : BitVec 16 × State :=
  let l := (List.range (Config.ticks s.steps % 65535)).foldl (fun (l : BitVec 16) _ => lfsrStep l) (s.lfsr core slot)
  (l, s.modCore core fun c => { c with lfsr := SMap.set 0 c.lfsr slot l })

/-- The groups of a context resident on a slot that have not ended, oldest first (R262, R404). -/
def State.slotGroups (s : State) (core slot ctx : Nat) : List Group :=
  orderBy (s.groups.filter fun g => g.core == core && g.slot == slot && g.ctx == ctx && g.st != .ended)
    fun a b => a.age ≤ b.age

/-- ENS of %smpctl. -/
def Ctx.ens (c : Ctx) : Bool := c.smpctl.getLsbD 0
/-- ENT of %smpctl. -/
def Ctx.ent (c : Ctx) : Bool := c.smpctl.getLsbD 1

/-- A sample record (R405). -/
def sampleWord (time : DWord) (core slot ctx : Nat) (iss stall : Option Group) : Nat :=
  let part := match iss with
    | some g => g.lastPc.toNat * 2 ^ 384 + g.gid.toNat * 2 ^ 288 + g.exec.toNat * 2 ^ 256 + 2 ^ 138
    | none => 0
  let spart := match stall with
    | some g => g.pc.toNat * 2 ^ 320 + g.gid.toNat * 2 ^ 224 + g.exec.toNat * 2 ^ 192 + g.reason.num * 2 ^ 144 + g.st.num * 2 ^ 140 +
        2 ^ 139
    | none => 0
  time.toNat * 2 ^ 448 + part + spart + ctx % 2 ^ 16 * 2 ^ 176 + core % 512 * 2 ^ 151 + slot % 4 * 2 ^ 149 + 1

/-- A tick of a slot for one context (R404). -/
def State.sampleOne (s : State) (core slot : Nat) (l : BitVec 16) (ctx : Nat) : State :=
  let gs := s.slotGroups core slot ctx
  let iss := (SMap.get none (s.core core).current slot).bind fun k => gs.find? fun g => g.key == k && g.st == .issuing
  let rest := gs.filter fun g => iss.map (·.key) != some g.key
  let stall := if rest.isEmpty then none else rest[(l.extractLsb' 11 5).toNat % rest.length]?
  s.sampleRecord ctx core (sampleWord s.dev.time core slot ctx iss stall)

/-- A sampling tick of a slot: a record for each context that samples and has a group resident there (R404). -/
def execSampleTick (core slot : Nat) (s : State) : Host.Outcome State Fault Refusal :=
  let cs := s.allCtxs.filter fun c => c.ens && !(s.slotGroups core slot c.num).isEmpty
  if cs.isEmpty then .next s
  else
    let (l, s1) := s.readLfsr core slot
    .next (cs.foldl (fun (t : State) (c : Ctx) => t.sampleOne core slot l c.num) s1)

/-- The countdown of a slot loaded (R406). -/
def State.loadCountdown (s : State) (core slot : Nat) : State :=
  let (l, s1) := s.readLfsr core slot
  s1.modCore core fun c => { c with countdown := SMap.set 0 c.countdown slot (2 + (l.extractLsb' 0 8).toNat) }

/-- An issue of the focused group noted: what was issued, and the countdown of its slot (R406). -/
def State.noteIssue (s : State) : State :=
  if !s.cx.ent || (SMap.get none (s.core s.g.core).tagged s.g.slot).isSome then s
  else
    let s1 := if SMap.get 0 (s.core s.g.core).countdown s.g.slot = 0 then s.loadCountdown s.g.core s.g.slot else s
    s1.modCore s.g.core fun c => { c with countdown := SMap.set 0 c.countdown s.g.slot (SMap.get 0 c.countdown s.g.slot - 1) }

/-- The countdown of a slot stands at 0: its last issue is to be tagged. -/
def State.tagDue (s : State) (core slot : Nat) : Bool :=
  SMap.get 0 (s.core core).countdown slot == 1 && (SMap.get none (s.core core).tagged slot).isNone

/-- Farthest level of an instruction by its opcode (R406): none, scratchpad, an atomic's home, or an engine or tile operation;
how far a virtual access goes depends on the caches, so it is a free value from 2 to 8. -/
def memLevel (word : Word) (free : Byte) : BitVec 4 :=
  let op := (word.extractLsb' 24 8).toNat
  if (0x92 ≤ op ∧ op ≤ 0x97) ∨ (0xA0 ≤ op ∧ op ≤ 0xA5) ∨ (0xB1 ≤ op ∧ op ≤ 0xB5) ∨ (0xB9 ≤ op ∧ op ≤ 0xBB) ∨
      (op = 0xC0 ∧ word.getLsbD 8 = false) then 1
  else if (0x98 ≤ op ∧ op ≤ 0x9F) ∨ op = 0xA6 then 9
  else if (0xB6 ≤ op ∧ op ≤ 0xB8) ∨ (0xBE ≤ op ∧ op ≤ 0xC0) ∨ (0xC3 ≤ op ∧ op ≤ 0xC6) ∨ (0xC9 ≤ op ∧ op ≤ 0xCA) ∨
      (0xCC ≤ op ∧ op ≤ 0xCF) then 10
  else if (0x80 ≤ op ∧ op ≤ 0x91) ∨ (0xA8 ≤ op ∧ op ≤ 0xAC) then BitVec.ofNat 4 (2 + free.toNat % 7)
  else 0

/-- The instruction a slot has just issued is tagged (R406). -/
def execSampleTag (core slot : Nat) (s : State) : Host.Outcome State Fault Refusal :=
  match if s.tagDue core slot then (SMap.get none (s.core core).current slot).bind s.group? else none with
  | none => .next s
  | some g =>
    let (fb, s1) := s.freeBytes 1
    let t : Tagged :=
      { time := s.dev.time, pc := g.lastPc, gid := g.gid, g := g.key, ctx := g.ctx, exec := g.lastExec, word := g.lastWord
        code := g.lastCode, fate := if g.lastCode = 0 then 0 else 1, graft := g.lastGraft
        mlvl := memLevel g.lastWord (fb.headD 0) }
    .next (s1.modCore core fun c => { c with tagged := SMap.set none c.tagged slot (some t) })

/-- A tagged record (R406); `fr` fills the latencies, WREASON, TLBLVL and ILVL, which are timing. -/
def taggedWord (t : Tagged) (core slot : Nat) (fr : Nat) : Nat :=
  t.time.toNat * 2 ^ 448 + t.pc.toNat * 2 ^ 384 + t.gid.toNat * 2 ^ 352 + t.exec.toNat * 2 ^ 320 + fr % 2 ^ 80 * 2 ^ 240 +
    t.ctx % 2 ^ 16 * 2 ^ 224 + core % 512 * 2 ^ 215 + slot % 4 * 2 ^ 213 + fr / 2 ^ 80 % 14 * 2 ^ 208 + t.code.toNat * 2 ^ 200 +
    t.fate.toNat * 2 ^ 198 + (if t.graft then 2 ^ 197 else 0) + fr / 2 ^ 88 % 4 * 2 ^ 195 + fr / 2 ^ 96 % 3 * 2 ^ 193 +
    t.mlvl.toNat * 2 ^ 189 + t.word.toNat * 2 ^ 128 + 2

/-- A tagged instruction has completed: its record is written and the countdown loaded again (R406). -/
def execTaggedRecord (core slot : Nat) (s : State) : Host.Outcome State Fault Refusal :=
  match SMap.get none (s.core core).tagged slot with
  | none => .next s
  | some t =>
    let (fb, s1) := s.freeBytes 13
    let s2 := s1.sampleRecord t.ctx core (taggedWord t core slot (natOfBytes fb))
    .next ((s2.modCore core fun c => { c with tagged := SMap.set none c.tagged slot none }).loadCountdown core slot)

/-- A value of %smpctl that `smplctl` accepts (R407). -/
def smpctlLegal (x : Word) : Bool :=
  x.extractLsb' 17 15 == 0 && x.extractLsb' 2 6 == 0 && decide ((x.extractLsb' 13 4).toNat ≤ 8) &&
    decide (10 ≤ (x.extractLsb' 8 5).toNat) && decide ((x.extractLsb' 8 5).toNat ≤ 20)

/-- %smpctl written for the whole context; a change of ENT loads the countdowns of its cores afresh (R406, R407). -/
def State.setSmpctl (s : State) (x : Word) : State :=
  let s1 := s.modCx fun c => { c with smpctl := x }
  if s.cx.ent == x.getLsbD 1 then s1
  else { s1 with cores := s1.cores.map fun p => if s.cx.inPart (groveOf p.1) then (p.1, { p.2 with countdown := [] }) else p }

/-- `smplctl sA` (R407). -/
def execSmplctl (a : BitVec 7) (ea : Bool) (s : State) : Host.Outcome State Fault Refusal :=
  s.issue (firstCheck [operandCheck s.g [sOpd a 1 ea] [], raiseIf (!smpctlLegal (s.g.sreg a.toNat)) (illegal 5 1)]) fun s =>
    s.setSmpctl (s.g.sreg a.toNat)

/-- `smplctl.off` (R407). -/
def execSmplctlOff (s : State) : Host.Outcome State Fault Refusal :=
  s.issue .ok fun s => s.setSmpctl (s.cx.smpctl &&& 0xFFFFFFFC)

/-! ### The branch-and-mask trace (R408 to R414) -/

/-- `trcmark sP, k` (R414). -/
def execTrcmark (p : BitVec 7) (k : BitVec 12) (s : State) : Host.Outcome State Fault Refusal :=
  s.issue (operandCheck s.g [sOpd p 1] []) fun s => s.emit (.mark k (s.g.sreg p.toNat))

/-- `trcctl.on` (R413). -/
def execTrcctlOn (s : State) : Host.Outcome State Fault Refusal :=
  s.issue .ok fun s => (s.modTrc fun t => { t with on := true }).emit (.sync 7)

/-- `trcctl.off` (R413). -/
def execTrcctlOff (s : State) : Host.Outcome State Fault Refusal :=
  s.issue .ok fun s => s.traceTnt.modTrc fun t => { t with on := false }

/-- `trcctl.sync` (R413). -/
def execTrcctlSync (s : State) : Host.Outcome State Fault Refusal := s.issue .ok fun s => s.emit (.sync 6)

/-- A block of the group waits to be written (R412, R469). -/
def State.blockWaits (s : State) : Bool :=
  s.g.trc.keep.isSome || (s.core s.g.core).stage.any fun b => b.g == s.g.key

/-- `trcctl.flush` (R413): the partial block is queued, then the group waits until its blocks have been written or dropped. -/
def execTrcctlFlush (s : State) : Host.Outcome State Fault Refusal :=
  let s1 := if s.g.trc.keep.isNone && !s.g.trc.block.isEmpty then s.traceComplete false false else s
  if s1.blockWaits then .next (s1.waitAt .acquire .resource) else s1.issue .ok id

/-- `trcctl.cfg sA` (R413). -/
def execTrcctlCfg (a : BitVec 7) (ea : Bool) (s : State) : Host.Outcome State Fault Refusal :=
  let x := s.g.sreg a.toNat
  s.issue (firstCheck [operandCheck s.g [sOpd a 1 ea] [],
    raiseIf (x.extractLsb' 4 28 != 0 || decide ((x.extractLsb' 0 4).toNat < 8)) (illegal 5 1)]) fun s =>
    s.modCx fun c => { c with trccfg := x }

/-- The 64 bytes of a block (R409). -/
def TraceBlock.image (b : TraceBlock) : List Byte :=
  bytesOfNat 4 b.gid.toNat ++ bytesOfNat 2 b.seq.toNat ++
    [BitVec.ofNat 8 b.bytes.length, BitVec.ofNat 8 ((if b.final then 1 else 0) + (if b.stop then 2 else 0))] ++ b.bytes ++
    List.replicate (56 - b.bytes.length) 0

/-- The stage of a core moves on: the first block leaves, and the first kept block enters (R412, R469). -/
def State.stageNext (s : State) (core : Nat) : State :=
  let s1 := s.modCore core fun c => { c with stage := c.stage.drop 1 }
  match (s1.core core).keepers with
  | [] => s1
  | k :: t =>
    match (s1.group? k).bind (·.trc.keep) with
    | none => s1.modCore core fun c => { c with keepers := t }
    | some b =>
      (s1.modGroup k fun g => { g with trc := { g.trc with keep := none } }).modCore core fun c =>
        { c with keepers := t, stage := c.stage ++ [b] }

/-- A staged block is written when its ring has room; without a ring it is dropped (R400, R401, R412). -/
def execTraceBlockWrite (core : Nat) (s : State) : Host.Outcome State Fault Refusal :=
  match (s.core core).stage with
  | [] => .next s
  | b :: _ =>
    match s.ctx? b.ctx with
    | none => .next (s.stageNext core)
    | some c =>
      match s.ringPut c c.trcring.toNat b.image with
      | .full => .next s
      | .dropped => .next ((s.pmcCtx b.ctx core 0x2F 1).stageNext core)
      | .written t => .next (t.stageNext core)

/-! ### Counters (R425) -/

/-- Counters that count cycles, or lookups of the micro-TLB and the grove TLB, whose number depends on when an access is tried again:
timing, and so free values (assumption log 7). -/
def timedCounter (n : Nat) : Bool := n == 0 || (decide (0x11 ≤ n) && decide (n ≤ 0x1D)) || n == 0x23 || n == 0x24

/-- Where a counter is held: the die for 0x27 and 0x28, else the core. -/
def pmcHolder (core n : Nat) : Nat := if n = 0x27 ∨ n = 0x28 then 512 + dieOf core else core

/-- A counter of the group's context. -/
def State.pmc (s : State) (n : Nat) : DWord := SMap.get 0 s.cx.pmc (pmcHolder s.g.core n * 256 + n)

/-- `rdpmc sD, n` (R425). -/
def execRdpmc (d func : BitVec 7) (s : State) : Host.Outcome State Fault Refusal :=
  s.issue (operandCheck s.g [] [sOpd d 3]) fun s =>
    let (fb, s1) := s.freeBytes 8
    let x : DWord := if timedCounter func.toNat then BitVec.ofNat 64 (natOfBytes fb) else s.pmc func.toNat
    (s1.modG fun g => { g with pmchi := hi32 x }).produceWord d.toNat (lo32 x)

/-- `rdpmc.hi sD, n` (R425). -/
def execRdpmcHi (d _func : BitVec 7) (s : State) : Host.Outcome State Fault Refusal :=
  s.issue (operandCheck s.g [] [sOpd d 3]) fun s => s.produceWord d.toNat s.g.pmchi

end Sys2Proof.Machine
end

