-- ==== Sys2Proof/Machine/VectorMove.lean ====
section
/-! DEFINITION. Vector moves, tags, compress and lane exchange (R305, R320 to R324). -/

namespace Sys2Proof.Machine

/-- The checks of a move-class instruction: any TYPE of 0 to 12 without block scales, no tag (R300, R319). -/
def moveCheck (g : Group) (srcs dsts : List Opd) : Check := vecCheck g (codesCheck g) srcs dsts (fun _ => true) []

/-- A move-class instruction: a lane value from the group, the tag of rule 3 (R137, R305). -/
def State.moveOp (s : State) (srcs : List Opd) (d : BitVec 7) (tagSrcs : List (BitVec 7)) (f : Group → Nat → Nat) :
    Host.Outcome State Fault Refusal :=
  s.issue (moveCheck s.g srcs [s.g.tOpd d 3]) fun s =>
    s.modG fun g => g.writeT (is64 g.type) d g.active (f g) (g.moveTag tagSrcs)

/-- VAND (R305). -/
def execVand (d a b : BitVec 7) (ea eb : Bool) (s : State) : Host.Outcome State Fault Refusal :=
  s.moveOp [s.g.tOpd a 1 ea, s.g.tOpd b 2 eb] d [a, b] fun g l => g.opv a l &&& g.opv b l
/-- VOR (R305). -/
def execVor (d a b : BitVec 7) (ea eb : Bool) (s : State) : Host.Outcome State Fault Refusal :=
  s.moveOp [s.g.tOpd a 1 ea, s.g.tOpd b 2 eb] d [a, b] fun g l => g.opv a l ||| g.opv b l
/-- VXOR (R305). -/
def execVxor (d a b : BitVec 7) (ea eb : Bool) (s : State) : Host.Outcome State Fault Refusal :=
  s.moveOp [s.g.tOpd a 1 ea, s.g.tOpd b 2 eb] d [a, b] fun g l => g.opv a l ^^^ g.opv b l
/-- VANDN (R305). -/
def execVandn (d a b : BitVec 7) (ea eb : Bool) (s : State) : Host.Outcome State Fault Refusal :=
  s.moveOp [s.g.tOpd a 1 ea, s.g.tOpd b 2 eb] d [a, b] fun g l => g.opv a l &&& (2 ^ 64 - 1 - g.opv b l)
/-- VSEL: a where the lane's CMASK bit is 1, else b (R305). -/
def execVsel (d a b : BitVec 7) (ea eb : Bool) (s : State) : Host.Outcome State Fault Refusal :=
  s.moveOp [s.g.tOpd a 1 ea, s.g.tOpd b 2 eb] d [a, b] fun g l => if laneBit g.cmask l then g.opv a l else g.opv b l
/-- VMOV (R305). -/
def execVmov (d a : BitVec 7) (ea : Bool) (s : State) : Host.Outcome State Fault Refusal :=
  s.moveOp [s.g.tOpd a 1 ea] d [a] fun g l => g.opv a l

/-- The source lane of VSHFLI (R323). -/
def shflLane (m n l : Nat) : Nat :=
  match m with
  | 0 => l ^^^ n
  | 1 => if l < n then l else l - n
  | 2 => if 31 < l + n then l else l + n
  | _ => (l + n) % 32

/-- VSHFL: b is one 32-bit index register (R323). -/
def execVshfl (d a b : BitVec 7) (ea eb : Bool) (s : State) : Host.Outcome State Fault Refusal :=
  s.moveOp [s.g.tOpd a 1 ea, vOpd b 2 eb] d [a] fun g l => g.opv a ((g.vsrc b.toNat l).toNat % 32)
/-- VSHFLI (R323). -/
def execVshfli (d a : BitVec 7) (m : BitVec 2) (n : BitVec 5) (ea : Bool) (s : State) : Host.Outcome State Fault Refusal :=
  s.moveOp [s.g.tOpd a 1 ea] d [a] fun g l => g.opv a (shflLane m.toNat n.toNat l)
/-- VBCAST: lane n of a in every active lane (R324). -/
def execVbcast (d a b : BitVec 7) (ea eb : Bool) (s : State) : Host.Outcome State Fault Refusal :=
  s.moveOp [s.g.tOpd a 1 ea, vOpd b 2 eb] d [a] fun g _ => g.opv a ((g.vsrc b.toNat 0).toNat % 32)

/-- A value written to the scalar destination s(d - 96) of R303, or to its pair. -/
def Group.setSd (g : Group) (wide : Bool) (d : BitVec 7) (x : Nat) : Group :=
  if wide then g.setSpair (d.toNat - 96) (BitVec.ofNat 64 x) else g.setS (d.toNat - 96) (BitVec.ofNat 32 x)

/-- VMOVS: lane n of a to a scalar, once, whatever EXEC holds (R303, R324). -/
def execVmovs (d a b : BitVec 7) (ea eb : Bool) (s : State) : Host.Outcome State Fault Refusal :=
  s.issue (vecCheck s.g (codesCheck s.g) [s.g.tOpd a 1 ea, vOpd b 2 eb] [s.g.tOpd d 3] (acceptsTag s.g.dfmt s.g.type) [s.g.tOpd a 1])
    fun s => s.modG fun g => g.setSd (is64 g.type) d (g.opv a ((g.vsrc b.toNat 0).toNat % 32))

/-- VMOVV: a scalar to lane n of v[d], if that lane is active (R324). -/
def execVmovv (d a b : BitVec 7) (ea eb : Bool) (s : State) : Host.Outcome State Fault Refusal :=
  s.issue (moveCheck s.g [s.g.tOpd a 1 ea, vOpd b 2 eb] [s.g.tOpd d 3]) fun s =>
    s.modG fun g =>
      let n := (g.vsrc b.toNat 0).toNat % 32
      g.writeT (is64 g.type) d (g.active &&& BitVec.ofNat 32 (2 ^ n)) (fun _ => g.opv a 0) g.typeTag

/-- A tag of a 64-bit type, which both registers of a pair carry (R320). -/
def tag64 (t : BitVec 5) : Bool := t == 8 || t == 9 || t == 0x0A

/-- VTAG: the tag alone is written, and only with an active lane (R320, R243). -/
def execVtag (d : BitVec 7) (t : BitVec 5) (s : State) : Host.Outcome State Fault Refusal :=
  s.issue (vecCheck s.g .ok [] [vOpd d 3 false (if tag64 t then 2 else 1)] (fun _ => true) []) fun s =>
    s.modG fun g =>
      if g.active = 0 then g
      else if tag64 t then (g.setTag d.toNat t).setTag (d.toNat + 1) t
      else g.setTag d.toNat t

/-- VGETTAG: the tag of v[a]; a broadcast reads as the tag of TYPE (R321). -/
def execVgettag (d a : BitVec 7) (ea : Bool) (s : State) : Host.Outcome State Fault Refusal :=
  s.issue (vecCheck s.g .ok [vOpd a 1 ea] [vOpd d 3] (fun _ => true) []) fun s =>
    s.modG fun g => g.setS (d.toNat - 96) (BitVec.ofNat 32
      (if a.toNat < 96 then (g.tag a.toNat).toNat else g.typeTag.toNat))

/-- The rank of an element in VCMPR: 0 for an inactive lane, then magnitudes, NaN above all (R322). -/
def cmprRank (g : Group) (a : BitVec 7) (l : Nat) : Nat :=
  if !laneBit g.active l then 0
  else
    let x := (g.vsrc a.toNat l).toNat
    1 + (match g.type with
      | 0 => (sextN x 32).natAbs
      | 1 => x
      | _ => if (f32.decode false x).isNan then 2 ^ 32 else x % 2 ^ 31)

/-- Lane `l` is one of the two of largest rank in its four; equal ranks go to the lower lane (R322). -/
def cmprKeeps (g : Group) (a : BitVec 7) (l : Nat) : Bool :=
  let q := l / 4 * 4
  let better := (rangeFrom q 4).filter fun k =>
    decide (cmprRank g a l < cmprRank g a k) || (cmprRank g a k == cmprRank g a l && decide (k < l))
  decide (better.length < 2)

/-- VCMPR (R322). -/
def execVcmpr (d a : BitVec 7) (ea : Bool) (s : State) : Host.Outcome State Fault Refusal :=
  let t := s.g.type
  s.issue (vecCheck s.g (typeCheck (t == 0 || t == 1 || t == 8)) [vOpd a 1 ea] [vOpd d 3] (acceptsTag s.g.dfmt t)
      [vOpd a 1]) fun s =>
    (s.writeCmask (mergeMask s.g.cmask (maskOfLanes (cmprKeeps s.g a)) s.g.active)).modG fun g =>
      g.writeT false d s.g.active (fun l => if cmprKeeps s.g a l then s.g.opv a l else 0) s.g.typeTag

end Sys2Proof.Machine
end

