-- ==== Sys2Proof/Machine/VectorFloat.lean ====
section
/-! DEFINITION. Vector floating-point arithmetic, conversions, reductions and scans (R309 to R318, R325). -/

namespace Sys2Proof.Machine

/-- a × b + d rounded once: the first NaN operand in the order a, b, d, else the default NaN of an invalid product or sum
(R214, R311). -/
def fmaVal (rnd : Nat) (a b d : Val) : Val :=
  if a.isNan then a else if b.isNan then b else if d.isNan then d else Val.add rnd (a.mul b) d

/-- Smaller or larger of two elements: −0 below +0; one NaN gives the other operand unchanged (R311). -/
def fminmaxCode (f : FFmt) (r : Rnd) (wantMin : Bool) (x y : Nat) : Nat :=
  let a := f.decode r.ftz x
  let b := f.decode r.ftz y
  match a.isNan, b.isNan with
  | true, true => (f.encode r false a).code
  | true, false => y
  | false, true => x
  | false, false =>
    let aLower := match Val.cmp a b with
      | some .lt => true
      | some .gt => false
      | _ => a.neg || !b.neg
    (f.encode r false (if aLower == wantMin then a else b)).code

/-- Two or three float elements combined exactly and rounded once (R311). -/
def State.floatOp (s : State) (srcs : List Opd) (d : BitVec 7) (f : Group → Nat → Nat → Val) :
    Host.Outcome State Fault Refusal :=
  s.elemOp typeFloat srcs d fun g l j => ((g.typeFmt g.type).encode (g.rounding 0).plain false (f g l j)).code

/-- FADD (R311). -/
def execFadd (d a b : BitVec 7) (ea eb : Bool) (s : State) : Host.Outcome State Fault Refusal :=
  s.floatOp [s.g.tOpd a 1 ea, s.g.tOpd b 2 eb] d fun g l j =>
    Val.add (g.rounding 0).plain.rnd (g.elv a l j) (g.elv b l j)
/-- a − b with the NaN order a, b (R214, R311). -/
def subVal (rnd : Nat) (a b : Val) : Val := if a.isNan then a else if b.isNan then b else Val.add rnd a b.negate
/-- FSUB (R311). -/
def execFsub (d a b : BitVec 7) (ea eb : Bool) (s : State) : Host.Outcome State Fault Refusal :=
  s.floatOp [s.g.tOpd a 1 ea, s.g.tOpd b 2 eb] d fun g l j =>
    subVal (g.rounding 0).plain.rnd (g.elv a l j) (g.elv b l j)
/-- FMUL (R311). -/
def execFmul (d a b : BitVec 7) (ea eb : Bool) (s : State) : Host.Outcome State Fault Refusal :=
  s.floatOp [s.g.tOpd a 1 ea, s.g.tOpd b 2 eb] d fun g l j => (g.elv a l j).mul (g.elv b l j)
/-- FFMA (R311). -/
def execFfma (d a b : BitVec 7) (ea eb ed : Bool) (s : State) : Host.Outcome State Fault Refusal :=
  s.floatOp [s.g.tOpd a 1 ea, s.g.tOpd b 2 eb, s.g.tOpd d 3 ed] d fun g l j =>
    fmaVal (g.rounding 0).plain.rnd (g.elv a l j) (g.elv b l j) (g.elv d l j)
/-- FMIN (R311). -/
def execFmin (d a b : BitVec 7) (ea eb : Bool) (s : State) : Host.Outcome State Fault Refusal :=
  s.elemOp typeFloat [s.g.tOpd a 1 ea, s.g.tOpd b 2 eb] d fun g l j =>
    fminmaxCode (g.typeFmt g.type) (g.rounding 0).plain true (g.el a l j) (g.el b l j)
/-- FMAX (R311). -/
def execFmax (d a b : BitVec 7) (ea eb : Bool) (s : State) : Host.Outcome State Fault Refusal :=
  s.elemOp typeFloat [s.g.tOpd a 1 ea, s.g.tOpd b 2 eb] d fun g l j =>
    fminmaxCode (g.typeFmt g.type) (g.rounding 0).plain false (g.el a l j) (g.el b l j)
/-- FABS: the sign bit cleared, no other bit changed (R312). -/
def execFabs (d a : BitVec 7) (ea : Bool) (s : State) : Host.Outcome State Fault Refusal :=
  s.elemOp typeFloat [s.g.tOpd a 1 ea] d fun g l j => g.el a l j % 2 ^ (typeW g.type - 1)
/-- FNEG: the sign bit inverted, no other bit changed (R312). -/
def execFneg (d a : BitVec 7) (ea : Bool) (s : State) : Host.Outcome State Fault Refusal :=
  s.elemOp typeFloat [s.g.tOpd a 1 ea] d fun g l j => g.el a l j ^^^ 2 ^ (typeW g.type - 1)

/-- A float compare: false where a NaN takes part (R309). -/
def State.floatCmp (s : State) (a b : BitVec 7) (ea eb : Bool) (c : Option Ordering → Bool) :
    Host.Outcome State Fault Refusal :=
  let srcs := [s.g.tOpd a 1 ea, s.g.tOpd b 2 eb]
  s.issue (vecCheck s.g (typeCheck (typeFloat s.g.type)) srcs [] (acceptsTag s.g.dfmt s.g.type) srcs) fun s =>
    s.writeCmask (mergeMask s.g.cmask (maskOfLanes fun l =>
      (List.range (typeN s.g.type)).all fun j => c (Val.cmp (s.g.elv a l j) (s.g.elv b l j))) s.g.active)

/-- FCMPEQ (R309). -/
def execFcmpeq (a b : BitVec 7) (ea eb : Bool) (s : State) : Host.Outcome State Fault Refusal :=
  s.floatCmp a b ea eb (· == some .eq)
/-- FCMPLT (R309). -/
def execFcmplt (a b : BitVec 7) (ea eb : Bool) (s : State) : Host.Outcome State Fault Refusal :=
  s.floatCmp a b ea eb (· == some .lt)
/-- FCMPLE (R309). -/
def execFcmple (a b : BitVec 7) (ea eb : Bool) (s : State) : Host.Outcome State Fault Refusal :=
  s.floatCmp a b ea eb fun o => o == some .lt || o == some .eq
/-- FCMPUN (R309). -/
def execFcmpun (a b : BitVec 7) (ea eb : Bool) (s : State) : Host.Outcome State Fault Refusal :=
  s.floatCmp a b ea eb (· == none)

/-- An element rounded to an integral value in its own format; the sign is kept (R313). -/
def frndCode (f : FFmt) (r : Rnd) (x : Nat) : Nat :=
  (f.encode r false (match f.decode r.ftz x with
    | .fin neg m e => .fin neg (roundMag r.rnd neg 0 m e false 0) 0
    | v => v)).code

/-- The mode of FRND (R313). -/
def frndMode (m : BitVec 3) (g : Group) : Rnd :=
  if m.toNat < 4 then { (g.rounding 0) with rnd := m.toNat } else (g.rounding 0).plain

/-- FRND (R313). -/
def execFrnd (d a : BitVec 7) (m : BitVec 3) (ea : Bool) (s : State) : Host.Outcome State Fault Refusal :=
  s.elemOp typeFloat [s.g.tOpd a 1 ea] d fun g l j => frndCode (g.typeFmt g.type) (frndMode m g) (g.el a l j)

/-- The class bit of an encoding (R310). -/
def fclassBit (f : FFmt) (x : Nat) : Nat :=
  let neg := decide (2 ^ (f.ew + f.mw) ≤ x)
  let e := x / 2 ^ f.mw % 2 ^ f.ew
  let m := x % 2 ^ f.mw
  if e = f.etop then
    if m = 0 then (if neg then 2 else 9) else if m / 2 ^ (f.mw - 1) = 1 then 1 else 0
  else if e = 0 then
    if m = 0 then (if neg then 5 else 6) else (if neg then 4 else 7)
  else (if neg then 3 else 8)

/-- FCLASS: b is one register or a broadcast scalar and is not tag-checked (R310). -/
def execFclass (a b : BitVec 7) (ea eb : Bool) (s : State) : Host.Outcome State Fault Refusal :=
  s.issue (vecCheck s.g (typeCheck (typeFloat s.g.type)) [s.g.tOpd a 1 ea, vOpd b 2 eb] []
      (acceptsTag s.g.dfmt s.g.type) [s.g.tOpd a 1]) fun s =>
    s.writeCmask (mergeMask s.g.cmask (maskOfLanes fun l => (List.range (typeN s.g.type)).all fun j =>
      (s.g.vsrc b.toNat l).getLsbD (fclassBit (s.g.typeFmt s.g.type) (s.g.el a l j))) s.g.active)

/-! ### Special functions (R314) -/

/-- `m × 2^e` in units of 2^-300, rounded down. -/
def units (m : Int) (e : Int) : Int := if -300 ≤ e then m * 2 ^ (e + 300).toNat else m / 2 ^ (-300 - e).toNat

/-- A value in units of 2^-300; an infinity as the power of two at which overflow begins (R212). -/
def Val.units : Val → Int
  | .fin n m e => Machine.units (if n then -(m : Int) else m) e
  | .inf n => Machine.units (if n then -1 else 1) 128
  | .nan _ => 0

/-- The quantum in f32 of an exact value whose leading bit is 2^lg (R209), in units of 2^-300. -/
def sfuUlp (lg : Int) : Int := Machine.units 1 (max lg f32.emin - f32.mw)

/-- A result the spec bounds but does not fix (R314; assumption log 12): a free f32 value where it lies within the bound, and
otherwise one that does. -/
def sfuWithin (fn : Nat) (w : Word) (ok : Int → Bool) (one : Val) : Val :=
  match f32.decode false (Config.sfu fn w).toNat with
  | .nan _ => one
  | .inf n => if ok (Val.inf n).units then .fin n 1 128 else one
  | y => if ok y.units then y else one

/-- A result within a bound of `a × 2^s`, in units of 2^-300. -/
def sfuNear (fn : Nat) (w : Word) (a s bound : Int) : Val :=
  sfuWithin fn w (fun y => decide (|y - Machine.units a s| ≤ bound)) (.fin (decide (a < 0)) a.natAbs s)

/-- A result within `k` ulps of a value that `a × 2^s` gives to 60 bits. -/
def sfuUlps (fn : Nat) (w : Word) (k : Int) (a s : Int) : Val :=
  sfuNear fn w a s (k * sfuUlp ((a.natAbs.log2 : Int) + s) + |Machine.units a s| / 2 ^ 60)

/-- A result within 2^-k of a value that `a × 2^-128` gives to 100 places. -/
def sfuAbs (fn : Nat) (w : Word) (k : Nat) (a : Int) : Val := sfuNear fn w a (-128) (2 ^ (300 - k) + 2 ^ 200)

/-- `1/x` of a positive `m × 2^e`, within 1 ulp. -/
def rcpVal (w : Word) (m : Nat) (e : Int) : Val :=
  let k := m.log2 + 40
  let lg := if 2 ^ m.log2 = m then -((m.log2 : Int) + e) else -((m.log2 : Int) + e) - 1
  let x := Machine.units m e
  sfuWithin 0 w (fun y => decide (|y * x - 2 ^ 600| ≤ sfuUlp lg * x)) (.fin false (2 ^ k / m) (-(k : Int) - e))

/-- `√(m × 2^e)` as `n × 2^f` with a flag for a remainder. -/
def sqrtParts (m : Nat) (e : Int) : Nat × Int × Bool :=
  let m1 := if e % 2 = 0 then m else 2 * m
  let e1 := if e % 2 = 0 then e else e - 1
  let n := Nat.sqrt (m1 * 2 ^ 80)
  (n, e1 / 2 - 40, n * n != m1 * 2 ^ 80)

/-- `1/√x` of a positive `m × 2^e`, within 1 ulp. -/
def rsqVal (w : Word) (m : Nat) (e : Int) : Val :=
  let m1 := if e % 2 = 0 then m else 2 * m
  let e1 := if e % 2 = 0 then e else e - 1
  let n := Nat.sqrt (2 ^ 160 / m1)
  let q := sfuUlp ((n.log2 : Int) - 80 - e1 / 2)
  let x := Machine.units m e
  sfuWithin 1 w
    (fun y => decide (y ≤ q ∨ (y - q) * (y - q) * x ≤ 2 ^ 900) && decide (0 ≤ y + q ∧ 2 ^ 900 ≤ (y + q) * (y + q) * x))
    (.fin false n (-80 - e1 / 2))

/-- The natural logarithm of 2, in units of 2^-128. -/
def fxLn2 : Nat := 0xB17217F7D1CF79ABC9E3B39803F2F6AF
/-- One turn, 2π, in units of 2^-256. -/
def fxTurn : Nat := 0x6487ED5110B4611A62633145C06E0E68948127044533E63A0105DF531D89CD912

/-- `t + t·x/(k+1) + t·x²/((k+1)(k+2)) + …`, in units of 2^-128. -/
def fxExp (x : Nat) : Nat → Nat → Nat → Nat
  | 0, _, _ => 0
  | fuel + 1, k, t => t + fxExp x fuel (k + 1) (t * x / 2 ^ 128 / (k + 1))

/-- `t - t·x²/((k+1)(k+2)) + …`, in units of 2^-128. -/
def fxTrig (x : Nat) : Nat → Nat → Int → Int
  | 0, _, _ => 0
  | fuel + 1, k, t => t + fxTrig x fuel (k + 2) (-(t * (x * x / 2 ^ 128 : Nat) / 2 ^ 128 / ((k + 1) * (k + 2) : Nat)))

/-- `t/k + t·z²/(k+2) + …`, in units of 2^-128. -/
def fxAtanh (z : Nat) : Nat → Nat → Nat → Nat
  | 0, _, _ => 0
  | fuel + 1, k, t => t / k + fxAtanh z fuel (k + 2) (t * z / 2 ^ 128 * z / 2 ^ 128)

/-- `2^f` of a fraction `f` in units of 2^-128, from 2^128 to below 2^129. -/
def fxExp2 (f : Nat) : Nat := min (fxExp (f * fxLn2 / 2 ^ 128) 40 0 (2 ^ 128)) (2 ^ 129 - 1)

/-- `2^x` of an x that is no integer, `±m × 2^e` with e < 0, within 2 ulps; beyond the format it overflows. -/
def exp2Val (w : Word) (n : Bool) (m : Nat) (e : Int) : Val :=
  let x : Int := if n then -(m : Int) else m
  let k := x / 2 ^ (-e).toNat
  let f := (x % 2 ^ (-e).toNat).toNat
  if 128 ≤ k then .fin false 1 128
  else sfuUlps 3 w 2 (fxExp2 (f * 2 ^ 128 / 2 ^ (-e).toNat)) (k - 128)

/-- `log₂ x` of a positive `m × 2^e`, within 2 ulps outside [0.5, 2] and within 2^-22 there. -/
def log2Val (w : Word) (m : Nat) (e : Int) : Val :=
  let p := 2 ^ m.log2
  let z := (m - p) * 2 ^ 128 / (m + p)
  let a := ((m.log2 : Int) + e) * 2 ^ 128 + (2 * fxAtanh z 45 1 z * 2 ^ 128 / fxLn2 : Nat)
  let x := Machine.units m e
  if Machine.units 1 (-1) ≤ x ∧ x ≤ Machine.units 1 1 then sfuAbs 4 w 22 a else sfuUlps 4 w 2 a (-128)

/-- The sine or the cosine of `±m × 2^e` radians, within 2^-21. -/
def trigVal (fn : Nat) (w : Word) (n : Bool) (m : Nat) (e : Int) : Val :=
  let r := (m * 2 ^ (e + 256).toNat) % fxTurn / 2 ^ 128
  let a := if fn = 5 then fxTrig r 60 1 r else fxTrig r 60 0 (2 ^ 128)
  sfuAbs fn w 21 (if n && fn == 5 then -a else a)

/-- `tanh` of a positive `m × 2^e` below 2^-20 by its series, from 40 on as 1 less a quantity below 2^-100, and between from
`e^2x`. -/
def tanhPos (m : Nat) (e : Int) : Nat × Int :=
  let x := Machine.units m e
  if x < Machine.units 1 (-20) then (m * (2 ^ 128 - (Machine.units (m * m : Nat) (2 * e) / 2 ^ 172 / 3).toNat), e - 128)
  else if Machine.units 40 0 ≤ x then (2 ^ 128 - 2 ^ 28, -128)
  else
    let t := (x / 2 ^ 171).toNat
    let y := fxExp (t % fxLn2) 40 0 (2 ^ 128) * 2 ^ (t / fxLn2)
    ((y - 2 ^ 128) * 2 ^ 128 / (y + 2 ^ 128), -128)

/-- `tanh` of `±m × 2^e`, within 2 ulps. -/
def tanhVal (w : Word) (n : Bool) (m : Nat) (e : Int) : Val :=
  let a := tanhPos m e
  sfuUlps 7 w 2 (if n then -(a.1 : Int) else a.1) a.2

/-- One special function of an f32 input `w` read as `x` (R314). -/
def sfuF32 (r : Rnd) (fn : Nat) (w : Word) (x : Val) : Nat :=
  let out := fun v => (f32.encode { r with rnd := 0 } false v).code
  match fn, x with
  | _, .nan src => out (.nan src)
  | 0, .inf n => out (.fin n 0 0)
  | 0, .fin n m e =>
    if m = 0 then out (.inf n)
    else out (match rcpVal w m e with | .fin _ a b => .fin n a b | v => v)
  | 1, .inf n => if n then out (.nan none) else out (.fin false 0 0)
  | 1, .fin n m e => if m = 0 then out (.inf n) else if n then out (.nan none) else out (rsqVal w m e)
  | 2, .inf n => if n then out (.nan none) else out (.inf false)
  | 2, .fin n m e =>
    if m = 0 then out (.fin n 0 0)
    else if n then out (.nan none)
    else
      let (k, f, st) := sqrtParts m e
      (f32.encodeSt r false st (.fin false k f)).code
  | 3, .inf n => if n then out (.fin false 0 0) else out (.inf false)
  | 3, .fin n m e =>
    let scaled := if 0 ≤ e then (m * 2 ^ min e.toNat 300) else m / 2 ^ (-e).toNat
    let integral := decide (0 ≤ e) || m % 2 ^ (-e).toNat == 0
    if m = 0 then out (.fin false 1 0)
    else if integral then
      out (.fin false 1 (if n then -(min scaled 1000 : Nat) else (min scaled 1000 : Nat)))
    else out (exp2Val w n m e)
  | 4, .inf n => if n then out (.nan none) else out (.inf false)
  | 4, .fin n m e =>
    if m = 0 then out (.inf true)
    else if n then out (.nan none)
    else if Val.cmp (.fin false m e) (.fin false 1 0) = some .eq then out (.fin false 0 0)
    else out (log2Val w m e)
  | 5, .inf _ => out (.nan none)
  | 5, .fin n m e => if m = 0 then out (.fin n 0 0) else out (trigVal 5 w n m e)
  | 6, .inf _ => out (.nan none)
  | 6, .fin n m e => out (trigVal 6 w n m e)
  | _, .inf n => out (.fin n 1 0)
  | _, .fin n m e => if m = 0 then out (.fin n 0 0) else out (tanhVal w n m e)

/-- FSFU of an element of TYPE 8, 10 or 11 (R314). -/
def sfuElem (g : Group) (fn x : Nat) : Nat :=
  let f := g.typeFmt g.type
  let r := (g.rounding 0).plain
  let v := f.decode r.ftz x
  let w : Word := BitVec.ofNat 32 (f32.encode {} false v).code
  let y := sfuF32 r fn w v
  if g.type = 8 then y
  else if v.isNan then (f.encode r false v).code
  else (f.encode r false (f32.decode r.ftz y)).code

/-- A delivery of lane words to v[d] or its pair: the words in the order of `Ret.data` (R139). -/
def laneRet (wide : Bool) (d : BitVec 7) (m : Word) (f : Nat → Nat) (tag : BitVec 5) : Ret :=
  { scalar := false, d := d.toNat, n := if wide then 2 else 1, mask := m,
    data := (List.range 32).map (fun l => BitVec.ofNat 32 (f l)) ++
      (if wide then (List.range 32).map (fun l => BitVec.ofNat 32 (f l / 2 ^ 32)) else []),
    tag := some tag, counted := false }

/-- A delivery to a scalar or a scalar pair. -/
def scalarRet (wide : Bool) (n : Nat) (x : Nat) : Ret :=
  { scalar := true, d := n, n := if wide then 2 else 1, mask := 0xFFFFFFFF,
    data := BitVec.ofNat 32 x :: (if wide then [BitVec.ofNat 32 (x / 2 ^ 32)] else []), tag := none, counted := false }

/-- FSFU: the destination is marked empty until the delivery (R139, R302, R314). -/
def execFsfu (d a : BitVec 7) (n : BitVec 3) (ea : Bool) (s : State) : Host.Outcome State Fault Refusal :=
  let t := s.g.type
  let srcs := [s.g.tOpd a 1 ea]
  s.issue (vecCheck s.g (typeCheck (t == 8 || t == 10 || t == 11)) srcs [s.g.tOpd d 3] (acceptsTag s.g.dfmt t) srcs)
    fun s =>
      if s.g.active = 0 then s
      else s.produce (laneRet false d s.g.active
        (s.g.perElem fun l j => sfuElem s.g n.toNat (s.g.el a l j)) s.g.typeTag)

/-! ### Conversions (R316 to R318) -/

/-- The combinations CVT lists: source and target TYPE, element index, ed (R316). -/
def cvtLegal (ty t k : Nat) (ed : Bool) : Bool :=
  let ns := typeN ty
  let nt := typeN t
  decide (ty ≤ 11) && t != ty &&
    ((ns == nt && k == 0 && !ed) || (ns == 1 && decide (1 < nt) && decide (k < nt)) ||
      (decide (1 < ns) && nt == 1 && decide (k < ns) && !ed))

/-- The lane CVT writes: every element, or element `k` of d, or the lane from element `k` of the source (R316). -/
def cvtLane (g : Group) (t k : Nat) (a d : BitVec 7) (l : Nat) : Nat :=
  let ns := typeN g.type
  let nt := typeN t
  let src := g.typeFmt g.type
  let dst := g.typeFmt t
  let old := if is64 t then (g.vpair d.toNat l).toNat else (g.vsrc d.toNat l).toNat
  packElems (typeW t) (fun j =>
    if ns = 1 ∧ 1 < nt ∧ j ≠ k then elemOf (typeW t) old j
    else (convertCode src dst (g.rounding (nt * l + j)) (g.el a l (if ns = nt then j else if nt = 1 then k else 0))).code) nt

/-- CVT (R316). -/
def execCvt (d a : BitVec 7) (k : BitVec 2) (t : BitVec 5) (ea ed : Bool) (s : State) : Host.Outcome State Fault Refusal :=
  let ty := s.g.type
  let reads := typeN ty == 1 && decide (1 < typeN t.toNat)
  let dst := vOpd d 3 ed (if is64 t.toNat then 2 else 1)
  s.issue (vecCheck s.g (typeCheck (cvtLegal ty t.toNat k.toNat ed)) ([s.g.tOpd a 1 ea] ++ if reads then [dst] else [])
      [dst] (acceptsTag s.g.dfmt ty) [s.g.tOpd a 1]) fun s =>
    s.modG fun g => g.writeT (is64 t.toNat) d g.active (cvtLane g t.toNat k.toNat a d) (tagOf g.dfmt t.toNat)

/-- A format register that a conversion of single codes may name: set and not block-scaled (R134, R319). -/
def narrowUsable (g : Group) (j : Nat) : Bool := !unsetFmt (g.fmt j) && !(narrowFmt (g.fmt j)).sblk

/-- CVTN: byte k of d takes a code of fj (R317). -/
def execCvtn (d a : BitVec 7) (k : BitVec 2) (j : BitVec 4) (ea ed : Bool) (s : State) :
    Host.Outcome State Fault Refusal :=
  let t := s.g.type
  s.issue (vecCheck s.g (typeCheck ((t == 0 || t == 1 || t == 8) && narrowUsable s.g j.toNat))
      [vOpd a 1 ea, vOpd d 3 ed] [vOpd d 3] (acceptsTag s.g.dfmt t) [vOpd a 1]) fun s =>
    s.modG fun g => g.writeT false d g.active (fun l =>
      let old := (g.vsrc d.toNat l).toNat
      packElems 8 (fun i =>
        if i = k.toNat then
          (convertCode (g.typeFmt g.type) (narrowFmt (g.fmt j.toNat)) (g.rounding ((4 * l + k.toNat) % 32))
            (g.vsrc a.toNat l).toNat).code
        else elemOf 8 old i) 4) (BitVec.ofNat 5 (16 + j.toNat))

/-- CVTW: byte k of a, a code of fj, to the type of TYPE (R318). -/
def execCvtw (d a : BitVec 7) (k : BitVec 2) (j : BitVec 4) (ea : Bool) (s : State) : Host.Outcome State Fault Refusal :=
  let t := s.g.type
  s.issue (vecCheck s.g (typeCheck ((t == 0 || t == 1 || t == 8) && narrowUsable s.g j.toNat))
      [vOpd a 1 ea] [vOpd d 3] (· == BitVec.ofNat 5 (16 + j.toNat)) [vOpd a 1]) fun s =>
    s.modG fun g => g.writeT false d g.active (fun l =>
      (convertCode (narrowFmt (g.fmt j.toNat)) (g.typeFmt g.type) (g.rounding l).plain
        (elemOf 8 (g.vsrc a.toNat l).toNat k.toNat)).code) g.typeTag

/-! ### Reductions and scans (R221, R325) -/

/-- Two elements combined by an operation of VRED and VSCAN (R325). -/
def redCombine (g : Group) (op x y : Nat) : Nat :=
  let w := typeW g.type
  let f := g.typeFmt g.type
  let r := (g.rounding 0).plain
  let sx := fun v : Nat => if typeSigned g.type then sextN v w else (v : Int)
  if typeInt g.type then
    match op with
    | 0 => storeInt w (typeSigned g.type) g.sat (sx x + sx y)
    | 1 => if sx x ≤ sx y then x else y
    | 2 => if sx x ≤ sx y then y else x
    | 3 => x &&& y
    | 4 => x ||| y
    | _ => x ^^^ y
  else
    match op with
    | 0 => (f.encode r false (Val.add r.rnd (f.decode r.ftz x) (f.decode r.ftz y))).code
    | 1 => fminmaxCode f r true x y
    | _ => fminmaxCode f r false x y

/-- Two positions of a level of the tree: one value passes on unrounded (R221). -/
def treePair (f : Nat → Nat → Nat) : Option Nat → Option Nat → Option Nat
  | some x, some y => some (f x y)
  | some x, none => some x
  | none, y => y

/-- The next level of the tree. -/
def treeLevel (f : Nat → Nat → Nat) : List (Option Nat) → List (Option Nat)
  | a :: b :: t => treePair f a b :: treeLevel f t
  | l => l

/-- The pairwise tree over 32 lanes; 0 with no active lane (R221). -/
def redTree (f : Nat → Nat → Nat) (l : List (Option Nat)) : Nat :=
  match treeLevel f (treeLevel f (treeLevel f (treeLevel f (treeLevel f l)))) with
  | some x :: _ => x
  | _ => 0

/-- The running combinations over the lanes of a list (R221). -/
def scanLanes (f : Nat → Nat → Nat) : Option Nat → List (Option Nat) → List Nat
  | _, [] => []
  | acc, none :: t => 0 :: scanLanes f acc t
  | none, some x :: t => x :: scanLanes f (some x) t
  | some a, some x :: t => f a x :: scanLanes f (some (f a x)) t

/-- Element `j` of the active lanes of an operand. -/
def activeElems (g : Group) (a : BitVec 7) (j : Nat) : List (Option Nat) :=
  (List.range 32).map fun l => if laneBit g.active l then some (g.el a l j) else none

/-- The checks of VRED and VSCAN (R300, R325). -/
def redCheck (g : Group) (d a : BitVec 7) (p : BitVec 3) (ea : Bool) : Check :=
  vecCheck g (typeCheck (decide (g.type ≤ 11) && (decide (p.toNat < 3) || typeInt g.type)))
    [g.tOpd a 1 ea] [g.tOpd d 3] (acceptsTag g.dfmt g.type) [g.tOpd a 1]

/-- VRED (R325, R303). -/
def execVred (d a : BitVec 7) (p : BitVec 3) (ea : Bool) (s : State) : Host.Outcome State Fault Refusal :=
  s.issue (redCheck s.g d a p ea) fun s =>
    s.produce (scalarRet (is64 s.g.type) (d.toNat - 96)
      (packElems (typeW s.g.type) (fun j => redTree (redCombine s.g p.toNat) (activeElems s.g a j)) (typeN s.g.type)))

/-- VSCAN (R325). -/
def execVscan (d a : BitVec 7) (p : BitVec 3) (ea : Bool) (s : State) : Host.Outcome State Fault Refusal :=
  s.issue (redCheck s.g d a p ea) fun s =>
    if s.g.active = 0 then s
    else
      let sc := (List.range (typeN s.g.type)).map fun j => scanLanes (redCombine s.g p.toNat) none (activeElems s.g a j)
      s.produce (laneRet (is64 s.g.type) d s.g.active
        (fun l => packElems (typeW s.g.type) (fun j => (sc.getD j []).getD l 0) (typeN s.g.type)) s.g.typeTag)

end Sys2Proof.Machine
end

