-- ==== Sys2Proof/Machine/VectorInt.lean ====
section
/-! DEFINITION. Vector integer arithmetic, bit fields and compares (R304, R306 to R309, R315). -/

namespace Sys2Proof.Machine

/-- An integer instruction of two element sources whose exact result is stored under R212's last row (R304). -/
def State.intOp (s : State) (d a b : BitVec 7) (ea eb : Bool) (f : Int → Int → Int) : Host.Outcome State Fault Refusal :=
  s.elemOp typeInt [s.g.tOpd a 1 ea, s.g.tOpd b 2 eb] d fun g l j =>
    storeInt (typeW g.type) (typeSigned g.type) g.sat (f (g.eli a l j) (g.eli b l j))

/-- An integer instruction of two element sources whose result is bits, by the element width. -/
def State.bitsOp (s : State) (d a b : BitVec 7) (ea eb : Bool) (f : Nat → Nat → Nat → Nat) :
    Host.Outcome State Fault Refusal :=
  s.elemOp typeInt [s.g.tOpd a 1 ea, s.g.tOpd b 2 eb] d fun g l j => f (typeW g.type) (g.el a l j) (g.el b l j)

/-- VADD (R304). -/
def execVadd (d a b : BitVec 7) (ea eb : Bool) (s : State) : Host.Outcome State Fault Refusal := s.intOp d a b ea eb (· + ·)
/-- VSUB (R304). -/
def execVsub (d a b : BitVec 7) (ea eb : Bool) (s : State) : Host.Outcome State Fault Refusal := s.intOp d a b ea eb (· - ·)
/-- VMUL (R304). -/
def execVmul (d a b : BitVec 7) (ea eb : Bool) (s : State) : Host.Outcome State Fault Refusal := s.intOp d a b ea eb (· * ·)
/-- VMULH: bits [2w-1:w] of the product, stored as bits (R304). -/
def execVmulh (d a b : BitVec 7) (ea eb : Bool) (s : State) : Host.Outcome State Fault Refusal :=
  s.elemOp typeInt [s.g.tOpd a 1 ea, s.g.tOpd b 2 eb] d fun g l j =>
    lowBits (typeW g.type) (g.eli a l j * g.eli b l j / (2 ^ typeW g.type : Nat))
/-- VMAD: d is a third source (R304). -/
def execVmad (d a b : BitVec 7) (ea eb ed : Bool) (s : State) : Host.Outcome State Fault Refusal :=
  s.elemOp typeInt [s.g.tOpd a 1 ea, s.g.tOpd b 2 eb, s.g.tOpd d 3 ed] d fun g l j =>
    storeInt (typeW g.type) (typeSigned g.type) g.sat (g.eli a l j * g.eli b l j + g.eli d l j)
/-- VMIN (R304). -/
def execVmin (d a b : BitVec 7) (ea eb : Bool) (s : State) : Host.Outcome State Fault Refusal := s.intOp d a b ea eb min
/-- VMAX (R304). -/
def execVmax (d a b : BitVec 7) (ea eb : Bool) (s : State) : Host.Outcome State Fault Refusal := s.intOp d a b ea eb max
/-- VABSD (R304). -/
def execVabsd (d a b : BitVec 7) (ea eb : Bool) (s : State) : Host.Outcome State Fault Refusal :=
  s.intOp d a b ea eb fun x y => (x - y).natAbs
/-- VSHL (R304). -/
def execVshl (d a b : BitVec 7) (ea eb : Bool) (s : State) : Host.Outcome State Fault Refusal :=
  s.bitsOp d a b ea eb fun w x k => if k < w then x * 2 ^ k else 0
/-- VSHR (R304). -/
def execVshr (d a b : BitVec 7) (ea eb : Bool) (s : State) : Host.Outcome State Fault Refusal :=
  s.bitsOp d a b ea eb fun w x k => if k < w then x / 2 ^ k else 0
/-- VSRA (R304). -/
def execVsra (d a b : BitVec 7) (ea eb : Bool) (s : State) : Host.Outcome State Fault Refusal :=
  s.bitsOp d a b ea eb fun w x k => lowBits w (sextN x w / (2 ^ min k (w - 1) : Nat))
/-- VPOPC (R304). -/
def execVpopc (d a : BitVec 7) (ea : Bool) (s : State) : Host.Outcome State Fault Refusal :=
  s.elemOp typeInt [s.g.tOpd a 1 ea] d fun g l j => popcount (typeW g.type) (g.el a l j)
/-- VCLZ (R304). -/
def execVclz (d a : BitVec 7) (ea : Bool) (s : State) : Host.Outcome State Fault Refusal :=
  s.elemOp typeInt [s.g.tOpd a 1 ea] d fun g l j => clz (typeW g.type) (g.el a l j)

/-- VLI: the literal in every active lane; two words long (R306, R300). -/
def execVli (d : BitVec 7) (lit : BitVec 32) (s : State) : Host.Outcome State Fault Refusal :=
  s.issueTo
    (firstCheck [vecCheck s.g (firstCheck [typeCheck (!is64 s.g.type), codesCheck s.g]) [] [vOpd d 3] (fun _ => true) []])
    (s.g.pc + 8) fun s => s.modG fun g => g.writeV d.toNat g.active (fun _ => lit) g.typeTag

/-- The field of a 32-bit word that VBFE takes: `c` bits from bit `o`, 0 above bit 31 (R307). -/
def bfField (a o c : Nat) : Nat := a % 2 ^ 32 / 2 ^ o % 2 ^ c

/-- VBFE (R307). -/
def execVbfe (d a b : BitVec 7) (ea eb : Bool) (s : State) : Host.Outcome State Fault Refusal :=
  s.elemOp (fun t => decide (t < 2)) [s.g.tOpd a 1 ea, s.g.tOpd b 2 eb] d fun g l _ =>
    let o := g.opv b l % 32
    let c := min (g.opv b l / 256 % 64) 32
    let f := bfField (g.opv a l) o c
    if g.type = 0 then lowBits 32 (sextN f c) else f
/-- VBFI: d is a source; bits [min(o+c, 32)-1:o] of d replaced (R307). -/
def execVbfi (d a b : BitVec 7) (ea eb ed : Bool) (s : State) : Host.Outcome State Fault Refusal :=
  s.elemOp (fun t => decide (t < 2)) [s.g.tOpd a 1 ea, s.g.tOpd b 2 eb, s.g.tOpd d 3 ed] d fun g l _ =>
    let o := g.opv b l % 32
    let c := min (min (g.opv b l / 256 % 64) 32) (32 - o)
    let x := g.opv d l
    x / 2 ^ (o + c) * 2 ^ (o + c) + g.opv a l % 2 ^ c * 2 ^ o + x % 2 ^ o

/-- VLANEID (R308). -/
def execVlaneid (d : BitVec 7) (s : State) : Host.Outcome State Fault Refusal :=
  s.elemOp (fun t => decide (t < 2)) [] d fun _ l _ => l

/-- A compare: CMASK of the active lanes, set where the condition holds for every element (R303, R309). -/
def State.compareOp (s : State) (types : Nat → Bool) (a b : BitVec 7) (ea eb : Bool) (c : Group → Nat → Nat → Bool) :
    Host.Outcome State Fault Refusal :=
  let srcs := [s.g.tOpd a 1 ea, s.g.tOpd b 2 eb]
  s.issue (vecCheck s.g (typeCheck (types s.g.type)) srcs [] (acceptsTag s.g.dfmt s.g.type) srcs) fun s =>
    s.writeCmask (mergeMask s.g.cmask (maskOfLanes fun l => (List.range (typeN s.g.type)).all (c s.g l)) s.g.active)

/-- VCMPEQ (R309). -/
def execVcmpeq (a b : BitVec 7) (ea eb : Bool) (s : State) : Host.Outcome State Fault Refusal :=
  s.compareOp typeInt a b ea eb fun g l j => g.eli a l j == g.eli b l j
/-- VCMPNE: every element differs (R309). -/
def execVcmpne (a b : BitVec 7) (ea eb : Bool) (s : State) : Host.Outcome State Fault Refusal :=
  s.compareOp typeInt a b ea eb fun g l j => g.eli a l j != g.eli b l j
/-- VCMPLT (R309). -/
def execVcmplt (a b : BitVec 7) (ea eb : Bool) (s : State) : Host.Outcome State Fault Refusal :=
  s.compareOp typeInt a b ea eb fun g l j => decide (g.eli a l j < g.eli b l j)
/-- VCMPLE (R309). -/
def execVcmple (a b : BitVec 7) (ea eb : Bool) (s : State) : Host.Outcome State Fault Refusal :=
  s.compareOp typeInt a b ea eb fun g l j => decide (g.eli a l j ≤ g.eli b l j)

/-- The tag that a and b of VDOT4 carry under a TYPE (R315). -/
def dotTag (g : Group) (t : BitVec 5) : Bool :=
  match g.type with
  | 0 => t == 0x0B
  | 1 => t == 0x0C
  | _ => t == BitVec.ofNat 5 (16 + g.dfmt)

/-- The sum of VDOT4 under TYPE 8: NaN by the order a0 to a3, b0 to b3, d; otherwise one exact sum rounded once (R315). -/
def dotF32 (g : Group) (x y z : Nat) : Nat :=
  let nf := narrowFmt (g.fmt g.dfmt)
  let va := fun j => nf.decode false (elemOf 8 x j)
  let vb := fun j => nf.decode false (elemOf 8 y j)
  let vd := f32.decode g.ftz z
  let all := [va 0, va 1, va 2, va 3, vb 0, vb 1, vb 2, vb 3, vd]
  let r := (g.rounding 0).plain
  match all.find? (·.isNan) with
  | some v => (f32.encode r false v).code
  | none => (f32.encode r false ((List.range 4).foldl (fun acc j => Val.add r.rnd acc ((va j).mul (vb j))) vd)).code

/-- VDOT4 (R315). -/
def execVdot4 (d a b : BitVec 7) (ea eb ed : Bool) (s : State) : Host.Outcome State Fault Refusal :=
  let t := s.g.type
  let own := firstCheck [typeCheck (t == 0 || t == 1 || t == 8),
    raiseIf (t == 8 && (unsetFmt (s.g.fmt s.g.dfmt) || (narrowFmt (s.g.fmt s.g.dfmt)).sblk)) (illegal 5)]
  let srcs := [vOpd a 1 ea, vOpd b 2 eb, vOpd d 3 ed]
  s.issue (firstCheck [vecCheck s.g own srcs [vOpd d 3] (dotTag s.g) [vOpd a 1, vOpd b 2],
      tagCheck s.g (acceptsTag s.g.dfmt t) [vOpd d 3]]) fun s =>
    s.modG fun g => g.writeT false d g.active (fun l =>
      let x := g.opv a l
      let y := g.opv b l
      let z := g.opv d l
      if g.type = 8 then dotF32 g x y z
      else
        let sg := g.type == 0
        let el := fun (v j : Nat) => if sg then sextN (elemOf 8 v j) 8 else (elemOf 8 v j : Int)
        let sum := (List.range 4).foldl (fun (acc : Int) j => acc + el x j * el y j) 0
        storeInt 32 sg g.sat ((if sg then sextN z 32 else (z : Int)) + sum)) g.typeTag

end Sys2Proof.Machine
end

