-- ==== Sys2Proof/Machine/Dispatch.lean ====
section
/-! DEFINITION. Dispatch: one arm per constructor of Instr, each one direct call of its meaning. -/

namespace Sys2Proof.Machine

/-- The meaning of an instruction or step. -/
def exec (i : Instr) (s : State) : Host.Outcome State Fault Refusal :=
  match i with
  | .nop => Sys2Proof.Machine.execNop s
  | .sadd d a b ea eb => Sys2Proof.Machine.execSadd d a b ea eb s
  | .saddi d a imm ea => Sys2Proof.Machine.execSaddi d a imm ea s
  | .ssub d a b ea eb => Sys2Proof.Machine.execSsub d a b ea eb s
  | .smul d a b ea eb => Sys2Proof.Machine.execSmul d a b ea eb s
  | .smulhI d a b ea eb => Sys2Proof.Machine.execSmulhI d a b ea eb s
  | .smulhN d a b ea eb => Sys2Proof.Machine.execSmulhN d a b ea eb s
  | .sand d a b ea eb => Sys2Proof.Machine.execSand d a b ea eb s
  | .sor d a b ea eb => Sys2Proof.Machine.execSor d a b ea eb s
  | .sxor d a b ea eb => Sys2Proof.Machine.execSxor d a b ea eb s
  | .sandn d a b ea eb => Sys2Proof.Machine.execSandn d a b ea eb s
  | .sshl d a b ea eb => Sys2Proof.Machine.execSshl d a b ea eb s
  | .sshr d a b ea eb => Sys2Proof.Machine.execSshr d a b ea eb s
  | .ssra d a b ea eb => Sys2Proof.Machine.execSsra d a b ea eb s
  | .sshiShl d a n ea => Sys2Proof.Machine.execSshiShl d a n ea s
  | .sshiShr d a n ea => Sys2Proof.Machine.execSshiShr d a n ea s
  | .sshiSra d a n ea => Sys2Proof.Machine.execSshiSra d a n ea s
  | .sshiRor d a n ea => Sys2Proof.Machine.execSshiRor d a n ea s
  | .sminI d a b ea eb => Sys2Proof.Machine.execSminI d a b ea eb s
  | .smaxI d a b ea eb => Sys2Proof.Machine.execSmaxI d a b ea eb s
  | .sminN d a b ea eb => Sys2Proof.Machine.execSminN d a b ea eb s
  | .smaxN d a b ea eb => Sys2Proof.Machine.execSmaxN d a b ea eb s
  | .scmpeq d a b ea eb => Sys2Proof.Machine.execScmpeq d a b ea eb s
  | .scmpne d a b ea eb => Sys2Proof.Machine.execScmpne d a b ea eb s
  | .scmpltI d a b ea eb => Sys2Proof.Machine.execScmpltI d a b ea eb s
  | .scmpleI d a b ea eb => Sys2Proof.Machine.execScmpleI d a b ea eb s
  | .scmpltN d a b ea eb => Sys2Proof.Machine.execScmpltN d a b ea eb s
  | .scmpleN d a b ea eb => Sys2Proof.Machine.execScmpleN d a b ea eb s
  | .ssel d a b ea eb => Sys2Proof.Machine.execSsel d a b ea eb s
  | .sli d lit => Sys2Proof.Machine.execSli d lit s
  | .smovi d imm => Sys2Proof.Machine.execSmovi d imm s
  | .smov d a ea => Sys2Proof.Machine.execSmov d a ea s
  | .spopc d a ea => Sys2Proof.Machine.execSpopc d a ea s
  | .sclz d a ea => Sys2Proof.Machine.execSclz d a ea s
  | .bra off => Sys2Proof.Machine.execBra off s
  | .brs off => Sys2Proof.Machine.execBrs off s
  | .brns off => Sys2Proof.Machine.execBrns off s
  | .brany off => Sys2Proof.Machine.execBrany off s
  | .brall off => Sys2Proof.Machine.execBrall off s
  | .brnone off => Sys2Proof.Machine.execBrnone off s
  | .call off => Sys2Proof.Machine.execCall off s
  | .jr a ea => Sys2Proof.Machine.execJr a ea s
  | .yield => Sys2Proof.Machine.execYield s
  | .exit => Sys2Proof.Machine.execExit s
  | .trap k => Sys2Proof.Machine.execTrap k s
  | .rett => Sys2Proof.Machine.execRett s
  | .bkpt k => Sys2Proof.Machine.execBkpt k s
  | .mexec a ea => Sys2Proof.Machine.execMexec a ea s
  | .mrdexec d => Sys2Proof.Machine.execMrdexec d s
  | .mrdcm d => Sys2Proof.Machine.execMrdcm d s
  | .mwrcm a ea => Sys2Proof.Machine.execMwrcm a ea s
  | .mand => Sys2Proof.Machine.execMand s
  | .melse => Sys2Proof.Machine.execMelse s
  | .setmode a ea => Sys2Proof.Machine.execSetmode a ea s
  | .setmodeMsk d a ea ed => Sys2Proof.Machine.execSetmodeMsk d a ea ed s
  | .getmode d => Sys2Proof.Machine.execGetmode d s
  | .setfmt a k ea => Sys2Proof.Machine.execSetfmt a k ea s
  | .getfmt d k => Sys2Proof.Machine.execGetfmt d k s
  | .rdsr p k => Sys2Proof.Machine.execRdsr p k s
  | .wrsr p k => Sys2Proof.Machine.execWrsr p k s
  | .cancel p m => Sys2Proof.Machine.execCancel p m s
  | .tspawn d a ea => Sys2Proof.Machine.execTspawn d a ea s
  | .mcount d => Sys2Proof.Machine.execMcount d s
  | .vadd d a b ea eb => Sys2Proof.Machine.execVadd d a b ea eb s
  | .vsub d a b ea eb => Sys2Proof.Machine.execVsub d a b ea eb s
  | .vmul d a b ea eb => Sys2Proof.Machine.execVmul d a b ea eb s
  | .vmulh d a b ea eb => Sys2Proof.Machine.execVmulh d a b ea eb s
  | .vmad d a b ea eb ed => Sys2Proof.Machine.execVmad d a b ea eb ed s
  | .vmin d a b ea eb => Sys2Proof.Machine.execVmin d a b ea eb s
  | .vmax d a b ea eb => Sys2Proof.Machine.execVmax d a b ea eb s
  | .vabsd d a b ea eb => Sys2Proof.Machine.execVabsd d a b ea eb s
  | .vand d a b ea eb => Sys2Proof.Machine.execVand d a b ea eb s
  | .vor d a b ea eb => Sys2Proof.Machine.execVor d a b ea eb s
  | .vxor d a b ea eb => Sys2Proof.Machine.execVxor d a b ea eb s
  | .vandn d a b ea eb => Sys2Proof.Machine.execVandn d a b ea eb s
  | .vshl d a b ea eb => Sys2Proof.Machine.execVshl d a b ea eb s
  | .vshr d a b ea eb => Sys2Proof.Machine.execVshr d a b ea eb s
  | .vsra d a b ea eb => Sys2Proof.Machine.execVsra d a b ea eb s
  | .vsel d a b ea eb => Sys2Proof.Machine.execVsel d a b ea eb s
  | .vmov d a ea => Sys2Proof.Machine.execVmov d a ea s
  | .vli d lit => Sys2Proof.Machine.execVli d lit s
  | .vpopc d a ea => Sys2Proof.Machine.execVpopc d a ea s
  | .vclz d a ea => Sys2Proof.Machine.execVclz d a ea s
  | .vbfe d a b ea eb => Sys2Proof.Machine.execVbfe d a b ea eb s
  | .vbfi d a b ea eb ed => Sys2Proof.Machine.execVbfi d a b ea eb ed s
  | .vcmpeq a b ea eb => Sys2Proof.Machine.execVcmpeq a b ea eb s
  | .vcmpne a b ea eb => Sys2Proof.Machine.execVcmpne a b ea eb s
  | .vcmplt a b ea eb => Sys2Proof.Machine.execVcmplt a b ea eb s
  | .vcmple a b ea eb => Sys2Proof.Machine.execVcmple a b ea eb s
  | .vlaneid d => Sys2Proof.Machine.execVlaneid d s
  | .vdot4 d a b ea eb ed => Sys2Proof.Machine.execVdot4 d a b ea eb ed s
  | .fadd d a b ea eb => Sys2Proof.Machine.execFadd d a b ea eb s
  | .fsub d a b ea eb => Sys2Proof.Machine.execFsub d a b ea eb s
  | .fmul d a b ea eb => Sys2Proof.Machine.execFmul d a b ea eb s
  | .ffma d a b ea eb ed => Sys2Proof.Machine.execFfma d a b ea eb ed s
  | .fmin d a b ea eb => Sys2Proof.Machine.execFmin d a b ea eb s
  | .fmax d a b ea eb => Sys2Proof.Machine.execFmax d a b ea eb s
  | .fabs d a ea => Sys2Proof.Machine.execFabs d a ea s
  | .fneg d a ea => Sys2Proof.Machine.execFneg d a ea s
  | .fcmpeq a b ea eb => Sys2Proof.Machine.execFcmpeq a b ea eb s
  | .fcmplt a b ea eb => Sys2Proof.Machine.execFcmplt a b ea eb s
  | .fcmple a b ea eb => Sys2Proof.Machine.execFcmple a b ea eb s
  | .fcmpun a b ea eb => Sys2Proof.Machine.execFcmpun a b ea eb s
  | .frnd d a m ea => Sys2Proof.Machine.execFrnd d a m ea s
  | .fclass a b ea eb => Sys2Proof.Machine.execFclass a b ea eb s
  | .fsfu d a n ea => Sys2Proof.Machine.execFsfu d a n ea s
  | .cvt d a k t ea ed => Sys2Proof.Machine.execCvt d a k t ea ed s
  | .cvtn d a k j ea ed => Sys2Proof.Machine.execCvtn d a k j ea ed s
  | .cvtw d a k j ea => Sys2Proof.Machine.execCvtw d a k j ea s
  | .vtag d t => Sys2Proof.Machine.execVtag d t s
  | .vgettag d a ea => Sys2Proof.Machine.execVgettag d a ea s
  | .vcmpr d a ea => Sys2Proof.Machine.execVcmpr d a ea s
  | .vshfl d a b ea eb => Sys2Proof.Machine.execVshfl d a b ea eb s
  | .vshfli d a m n ea => Sys2Proof.Machine.execVshfli d a m n ea s
  | .vred d a p ea => Sys2Proof.Machine.execVred d a p ea s
  | .vscan d a p ea => Sys2Proof.Machine.execVscan d a p ea s
  | .vbcast d a b ea eb => Sys2Proof.Machine.execVbcast d a b ea eb s
  | .vmovs d a b ea eb => Sys2Proof.Machine.execVmovs d a b ea eb s
  | .vmovv d a b ea eb => Sys2Proof.Machine.execVmovv d a b ea eb s
  | .ldB d base off ebase => Sys2Proof.Machine.execLdB d base off ebase s
  | .ldH d base off ebase => Sys2Proof.Machine.execLdH d base off ebase s
  | .ldW d base off ebase => Sys2Proof.Machine.execLdW d base off ebase s
  | .ldD d base off ebase => Sys2Proof.Machine.execLdD d base off ebase s
  | .ldQ d base off ebase => Sys2Proof.Machine.execLdQ d base off ebase s
  | .stB d base off ebase => Sys2Proof.Machine.execStB d base off ebase s
  | .stH d base off ebase => Sys2Proof.Machine.execStH d base off ebase s
  | .stW d base off ebase => Sys2Proof.Machine.execStW d base off ebase s
  | .stD d base off ebase => Sys2Proof.Machine.execStD d base off ebase s
  | .stQ d base off ebase => Sys2Proof.Machine.execStQ d base off ebase s
  | .ldAcqW d base off scope ebase => Sys2Proof.Machine.execLdAcqW d base off scope ebase s
  | .ldAcqD d base off scope ebase => Sys2Proof.Machine.execLdAcqD d base off scope ebase s
  | .stRelW d base off scope ebase => Sys2Proof.Machine.execStRelW d base off scope ebase s
  | .stRelD d base off scope ebase => Sys2Proof.Machine.execStRelD d base off scope ebase s
  | .sld d base off ebase => Sys2Proof.Machine.execSld d base off ebase s
  | .sldD d base off ebase => Sys2Proof.Machine.execSldD d base off ebase s
  | .sst d base off ebase => Sys2Proof.Machine.execSst d base off ebase s
  | .sstD d base off ebase => Sys2Proof.Machine.execSstD d base off ebase s
  | .ldsW d base off ebase => Sys2Proof.Machine.execLdsW d base off ebase s
  | .ldsD d base off ebase => Sys2Proof.Machine.execLdsD d base off ebase s
  | .ldsQ d base off ebase => Sys2Proof.Machine.execLdsQ d base off ebase s
  | .stsW d base off ebase => Sys2Proof.Machine.execStsW d base off ebase s
  | .stsD d base off ebase => Sys2Proof.Machine.execStsD d base off ebase s
  | .stsQ d base off ebase => Sys2Proof.Machine.execStsQ d base off ebase s
  | .atomAdd d addr b scope => Sys2Proof.Machine.execAtomAdd d addr b scope s
  | .atomMin d addr b scope => Sys2Proof.Machine.execAtomMin d addr b scope s
  | .atomMax d addr b scope => Sys2Proof.Machine.execAtomMax d addr b scope s
  | .atomAnd d addr b scope => Sys2Proof.Machine.execAtomAnd d addr b scope s
  | .atomOr d addr b scope => Sys2Proof.Machine.execAtomOr d addr b scope s
  | .atomXor d addr b scope => Sys2Proof.Machine.execAtomXor d addr b scope s
  | .atomXchg d addr b scope => Sys2Proof.Machine.execAtomXchg d addr b scope s
  | .atomCas d addr b scope => Sys2Proof.Machine.execAtomCas d addr b scope s
  | .atomsAdd d addr b => Sys2Proof.Machine.execAtomsAdd d addr b s
  | .atomsMin d addr b => Sys2Proof.Machine.execAtomsMin d addr b s
  | .atomsMax d addr b => Sys2Proof.Machine.execAtomsMax d addr b s
  | .atomsOr d addr b => Sys2Proof.Machine.execAtomsOr d addr b s
  | .atomsXchg d addr b => Sys2Proof.Machine.execAtomsXchg d addr b s
  | .atomsCas d addr b => Sys2Proof.Machine.execAtomsCas d addr b s
  | .red d addr b scope => Sys2Proof.Machine.execRed d addr b scope s
  | .fence kind sa => Sys2Proof.Machine.execFence kind sa s
  | .prefetch d base off scope ebase => Sys2Proof.Machine.execPrefetch d base off scope ebase s
  | .cflush d base off scope ebase => Sys2Proof.Machine.execCflush d base off scope ebase s
  | .cinv d base off scope ebase => Sys2Proof.Machine.execCinv d base off scope ebase s
  | .icinv addr b scope => Sys2Proof.Machine.execIcinv addr b scope s
  | .monw d addr b scope => Sys2Proof.Machine.execMonw d addr b scope s
  | .pgmap d addr b => Sys2Proof.Machine.execPgmap d addr b s
  | .pgshare d addr b => Sys2Proof.Machine.execPgshare d addr b s
  | .pgrel d addr b => Sys2Proof.Machine.execPgrel d addr b s
  | .tlbinv addr b => Sys2Proof.Machine.execTlbinv addr b s
  | .binit d a ea ed => Sys2Proof.Machine.execBinit d a ea ed s
  | .barr d a ea => Sys2Proof.Machine.execBarr d a ea s
  | .barrDrop d a ea => Sys2Proof.Machine.execBarrDrop d a ea s
  | .bexp d a ea ed => Sys2Proof.Machine.execBexp d a ea ed s
  | .bexpAdd d a ea ed => Sys2Proof.Machine.execBexpAdd d a ea ed s
  | .bwait p kreg => Sys2Proof.Machine.execBwait p kreg s
  | .btest d a ea => Sys2Proof.Machine.execBtest d a ea s
  | .cpyt d a ea ed lit => Sys2Proof.Machine.execCpyt d a ea ed lit s
  | .kick p n => Sys2Proof.Machine.execKick p n s
  | .rsubLd d a ea => Sys2Proof.Machine.execRsubLd d a ea s
  | .rsubSt d a ea => Sys2Proof.Machine.execRsubSt d a ea s
  | .rput a ea => Sys2Proof.Machine.execRput a ea s
  | .rrel a ea => Sys2Proof.Machine.execRrel a ea s
  | .rcancel a ea => Sys2Proof.Machine.execRcancel a ea s
  | .gbar => Sys2Proof.Machine.execGbar s
  | .waitc c n => Sys2Proof.Machine.execWaitc c n s
  | .gth a ea => Sys2Proof.Machine.execGth a ea s
  | .cpyred a ea => Sys2Proof.Machine.execCpyred a ea s
  | .tdef a n ea => Sys2Proof.Machine.execTdef a n ea s
  | .tdefMeas n => Sys2Proof.Machine.execTdefMeas n s
  | .tinfo d w n => Sys2Proof.Machine.execTinfo d w n s
  | .ttrans hA hB => Sys2Proof.Machine.execTtrans hA hB s
  | .tscl d a sa ea => Sys2Proof.Machine.execTscl d a sa ea s
  | .tcvt hA hB => Sys2Proof.Machine.execTcvt hA hB s
  | .tld d a sa n ea ed => Sys2Proof.Machine.execTld d a sa n ea ed s
  | .tst d a sa n ea ed => Sys2Proof.Machine.execTst d a sa n ea ed s
  | .acq chain bank => Sys2Proof.Machine.execAcq chain bank s
  | .rel chain bank => Sys2Proof.Machine.execRel chain bank s
  | .bclr chain bank p => Sys2Proof.Machine.execBclr chain bank p s
  | .ldw hB => Sys2Proof.Machine.execLdw hB s
  | .swpw => Sys2Proof.Machine.execSwpw s
  | .mma bank hA r c g sa => Sys2Proof.Machine.execMma bank hA r c g sa s
  | .mmac bank hA r c g sa => Sys2Proof.Machine.execMmac bank hA r c g sa s
  | .ard chain bank hA r c => Sys2Proof.Machine.execArd chain bank hA r c s
  | .awr bank hA r c p => Sys2Proof.Machine.execAwr bank hA r c p s
  | .bndrd d n => Sys2Proof.Machine.execBndrd d n s
  | .bndrdStat d n => Sys2Proof.Machine.execBndrdStat d n s
  | .bndwr a n ea => Sys2Proof.Machine.execBndwr a n ea s
  | .bndwrInv n => Sys2Proof.Machine.execBndwrInv n s
  | .hbnd d n => Sys2Proof.Machine.execHbnd d n s
  | .hbndMax d n => Sys2Proof.Machine.execHbndMax d n s
  | .hbndRaise a n ea => Sys2Proof.Machine.execHbndRaise a n ea s
  | .hbndSet a n ea => Sys2Proof.Machine.execHbndSet a n ea s
  | .mlogStat d n => Sys2Proof.Machine.execMlogStat d n s
  | .mlogReissue d n => Sys2Proof.Machine.execMlogReissue d n s
  | .mlogSeal n => Sys2Proof.Machine.execMlogSeal n s
  | .rwload d a n ea ed => Sys2Proof.Machine.execRwload d a n ea ed s
  | .rwloadDef n => Sys2Proof.Machine.execRwloadDef n s
  | .rwflush => Sys2Proof.Machine.execRwflush s
  | .rwstat d func fl => Sys2Proof.Machine.execRwstat d func fl s
  | .trcmark p k => Sys2Proof.Machine.execTrcmark p k s
  | .trcctlOn => Sys2Proof.Machine.execTrcctlOn s
  | .trcctlOff => Sys2Proof.Machine.execTrcctlOff s
  | .trcctlSync => Sys2Proof.Machine.execTrcctlSync s
  | .trcctlFlush => Sys2Proof.Machine.execTrcctlFlush s
  | .trcctlCfg a ea => Sys2Proof.Machine.execTrcctlCfg a ea s
  | .smplctl a ea => Sys2Proof.Machine.execSmplctl a ea s
  | .smplctlOff => Sys2Proof.Machine.execSmplctlOff s
  | .rdpmc d func => Sys2Proof.Machine.execRdpmc d func s
  | .rdpmcHi d func => Sys2Proof.Machine.execRdpmcHi d func s
  | .sqkick tail => Sys2Proof.Machine.execSqkick tail s
  | .job => Sys2Proof.Machine.execJob s
  | .preempt => Sys2Proof.Machine.execPreempt s
  | .restore => Sys2Proof.Machine.execRestore s
  | .grant => Sys2Proof.Machine.execGrant s
  | .reclaim => Sys2Proof.Machine.execReclaim s
  | .create => Sys2Proof.Machine.execCreate s
  | .teardown => Sys2Proof.Machine.execTeardown s
  | .attest => Sys2Proof.Machine.execAttest s
  | .attach => Sys2Proof.Machine.execAttach s
  | .halt => Sys2Proof.Machine.execHalt s
  | .resume => Sys2Proof.Machine.execResume s
  | .freeze => Sys2Proof.Machine.execFreeze s
  | .thaw => Sys2Proof.Machine.execThaw s
  | .step => Sys2Proof.Machine.execStep s
  | .setbp => Sys2Proof.Machine.execSetbp s
  | .debugIcinv => Sys2Proof.Machine.execDebugIcinv s
  | .dump => Sys2Proof.Machine.execDump s
  | .wrreg => Sys2Proof.Machine.execWrreg s
  | .toHost slot => Sys2Proof.Machine.execToHost slot s
  | .toDevice slot => Sys2Proof.Machine.execToDevice slot s
  | .registerWrite bar2 off val => Sys2Proof.Machine.execRegisterWrite bar2 off val s
  | .l2quotaWrite die val => Sys2Proof.Machine.execL2quotaWrite die val s
  | .powercapWrite val => Sys2Proof.Machine.execPowercapWrite val s
  | .budgetWrite island val => Sys2Proof.Machine.execBudgetWrite island val s
  | .hostWindowAccess off wide wr => Sys2Proof.Machine.execHostWindowAccess off wide wr s
  | .i2cRead off => Sys2Proof.Machine.execI2cRead off s
  | .i2cWrite off val => Sys2Proof.Machine.execI2cWrite off val s
  | .throttleAssert => Sys2Proof.Machine.execThrottleAssert s
  | .throttleRelease => Sys2Proof.Machine.execThrottleRelease s
  | .coldReset jframe failStep badGroves => Sys2Proof.Machine.execColdReset jframe failStep badGroves s
  | .packageCurrentLimit => Sys2Proof.Machine.execPackageCurrentLimit s
  | .thermalLimit island temp => Sys2Proof.Machine.execThermalLimit island temp s
  | .laneFailure port => Sys2Proof.Machine.execLaneFailure port s
  | .linkLoss port => Sys2Proof.Machine.execLinkLoss port s
  | .fabricTransaction id wr op off tag size data => Sys2Proof.Machine.execFabricTransaction id wr op off tag size data s
  | .fabricTimeout id => Sys2Proof.Machine.execFabricTimeout id s
  | .hbmScrub frame fixes => Sys2Proof.Machine.execHbmScrub frame fixes s
  | .channelSparing stack => Sys2Proof.Machine.execChannelSparing stack s
  | .l2WayRetire die slice setIdx way => Sys2Proof.Machine.execL2WayRetire die slice setIdx way s
  | .frameRetire frame bad => Sys2Proof.Machine.execFrameRetire frame bad s
  | .groveRetire grove => Sys2Proof.Machine.execGroveRetire grove s
  | .lendingEnter core => Sys2Proof.Machine.execLendingEnter core s
  | .carveUpdate core => Sys2Proof.Machine.execCarveUpdate core s
  | .headroomRead die used => Sys2Proof.Machine.execHeadroomRead die used s
  | .placementDecision die => Sys2Proof.Machine.execPlacementDecision die s
  | .localStoreDrain team => Sys2Proof.Machine.execLocalStoreDrain team s
  | .windowZeroFill team => Sys2Proof.Machine.execWindowZeroFill team s
  | .eclassRefine ctx unit mean => Sys2Proof.Machine.execEclassRefine ctx unit mean s
  | .teamComplete team => Sys2Proof.Machine.execTeamComplete team s
  | .poolStart ctx unit => Sys2Proof.Machine.execPoolStart ctx unit s
  | .deadlockWalk ctx => Sys2Proof.Machine.execDeadlockWalk ctx s
  | .watchdog g => Sys2Proof.Machine.execWatchdog g s
  | .monitorTimeout g => Sys2Proof.Machine.execMonitorTimeout g s
  | .monitorEnd g => Sys2Proof.Machine.execMonitorEnd g s
  | .sampleTick core slot => Sys2Proof.Machine.execSampleTick core slot s
  | .sampleTag core slot => Sys2Proof.Machine.execSampleTag core slot s
  | .taggedRecord core slot => Sys2Proof.Machine.execTaggedRecord core slot s
  | .traceBlockWrite core => Sys2Proof.Machine.execTraceBlockWrite core s
  | .saveRequest ctx => Sys2Proof.Machine.execSaveRequest ctx s
  | .preemptDeadline ctx => Sys2Proof.Machine.execPreemptDeadline ctx s
  | .contextSave ctx => Sys2Proof.Machine.execContextSave ctx s
  | .tableWalk req => Sys2Proof.Machine.execTableWalk req s
  | .shootdownAccept ctx => Sys2Proof.Machine.execShootdownAccept ctx s
  | .shootdownInvalidation ctx target => Sys2Proof.Machine.execShootdownInvalidation ctx target s
  | .shootdownAck ctx target => Sys2Proof.Machine.execShootdownAck ctx target s
  | .gets grove line first n => Sys2Proof.Machine.execGets grove line first n s
  | .getw grove line first n => Sys2Proof.Machine.execGetw grove line first n s
  | .coherenceGrant g => Sys2Proof.Machine.execCoherenceGrant g s
  | .recallWords grove line mask => Sys2Proof.Machine.execRecall grove line mask s
  | .inv grove line mask => Sys2Proof.Machine.execInv grove line mask s
  | .binv grove line => Sys2Proof.Machine.execBinv grove line s
  | .wb grove line mask => Sys2Proof.Machine.execWb grove line mask s
  | .drop grove line mask => Sys2Proof.Machine.execDrop grove line mask s
  | .atomicRequest grove => Sys2Proof.Machine.execAtomicRequest grove s
  | .atomicReply g => Sys2Proof.Machine.execAtomicReply g s
  | .loadReturn g => Sys2Proof.Machine.execLoadReturn g s
  | .fetchFill req => Sys2Proof.Machine.execFetchFill req s
  | .engineRequestStart core cls => Sys2Proof.Machine.execEngineRequestStart core cls s
  | .engineChunkDone core n => Sys2Proof.Machine.execEngineChunkDone core n s
  | .gatherBatch core n => Sys2Proof.Machine.execGatherBatch core n s
  | .copyReduceUpdate core n => Sys2Proof.Machine.execCopyReduceUpdate core n s
  | .loaderFill sub => Sys2Proof.Machine.execLoaderFill sub s
  | .storerDrain sub => Sys2Proof.Machine.execStorerDrain sub s
  | .arrayStepStart array => Sys2Proof.Machine.execArrayStepStart array s
  | .arrayStepEnd array => Sys2Proof.Machine.execArrayStepEnd array s
  | .reissue array bank => Sys2Proof.Machine.execReissue array bank s
  | .tileTransferDone op => Sys2Proof.Machine.execTileTransferDone op s
  | .trapEntry g => Sys2Proof.Machine.execTrapEntry g s
  | .faultHalt ctx => Sys2Proof.Machine.execFaultHalt ctx s
  | .containment ctx => Sys2Proof.Machine.execContainment ctx s
  | .forcedReset ctx => Sys2Proof.Machine.execForcedReset ctx s
  | .fabricResponse id code det data => Sys2Proof.Machine.execFabricResponse id code det data s

end Sys2Proof.Machine
end

