-- ==== Sys2Proof/Machine/Match.lean ====
section
/-! DEFINITION. The graft stage: roles of words, the window, the decision, and a match issued as one unit (R353 to R360, R368
to R371). -/

namespace Sys2Proof.Machine

/-! ### Words of the instruction stream -/

/-- What stands at an address: an instruction word with its literal, or why it cannot be read (R142). -/
inductive Look where
  | word (w lit : Word)
  | check (c : Check)
  | fill (q : FillReq)
  deriving DecidableEq, Repr

/-- The instruction at an address for the focused group; the literal word of a two-word instruction is fetched with it. -/
def State.look (s : State) (va : DWord) : Look :=
  match s.fetchAt va with
  | .check c => .check c
  | .fill q => .fill q
  | .word w =>
    if isRl w then
      match s.fetchAt (va + 4) with
      | .check c => .check c
      | .fill q => .fill q
      | .word l => .word w l
    else .word w 0

/-- Bytes of an instruction (R124). -/
def sizeOf4 (w : Word) : Nat := if isRl w then 8 else 4

/-- A line asked of the die fetch agent, once. -/
def State.askFill (s : State) (q : FillReq) : State := if s.fills.contains q then s else { s with fills := s.fills ++ [q] }

/-- A fetch that does not give a word: a wait, or the code raised at the PC (R142). -/
def State.lookFails (s : State) : Look → State
  | .word _ _ => s
  | .check c => s.refuse c
  | .fill q => (s.askFill q).waitAt .ifetch .resource

/-- An enabled address breakpoint lies at a PC (R353, R416). -/
def Ctx.breakAt (c : Ctx) (pc : DWord) : Option Nat :=
  (List.range 8).find? fun k => (SMap.get {} c.bps k).en && (SMap.get {} c.bps k).va == pc

/-! ### Roles (R353) -/

/-- The roles of words in the graft stage. -/
inductive Role where
  | entry | inert | separator | flush
  deriving DecidableEq, Repr

/-- The opcode of a word. -/
def opcodeOf (w : Word) : Nat := (w.extractLsb' 24 8).toNat

/-- The fields of a word under its opcode's format. -/
def bodyOf (w : Word) : Option Body := (formatOf (w.extractLsb' 24 8)).map fun f => f.unpack (w.extractLsb' 0 24)

/-- Some empty-trap bit of a word is 1. -/
def hasTrapBit (w : Word) : Bool :=
  match bodyOf w with
  | some (.RRR _ _ _ ea eb ed) => ea || eb || ed
  | some (.RI _ _ _ ea) => ea
  | some (.X _ _ _ ea ed _) => ea || ed
  | _ => false

/-- Opcodes of the inert class. -/
def inertOp (op : Nat) : Bool := (decide (1 ≤ op) && decide (op ≤ 0x1F)) || op == 0x37 || op == 0x39 || op == 0x3A

/-- The role of a word. -/
def roleOf (w lit : Word) : Role :=
  match decode w lit with
  | .error _ => .flush
  | .ok _ =>
    let op := opcodeOf w
    if entryOp op then .entry
    else if inertOp op then (if hasTrapBit w then .separator else .inert)
    else if 0x40 ≤ op ∧ op ≤ 0x7E then .separator
    else .flush

/-! ### The window (R354) -/

/-- A word of the window with its PC. -/
structure WWord where
  pc : DWord
  w : Word
  lit : Word := 0
  deriving DecidableEq, Repr

/-- Entries from the oldest, the inert instructions with the number of entries before each, and a look-ahead that waits. -/
structure Window where
  ents : List WWord
  inert : List (Nat × WWord) := []
  wait : Option Look := none
  deriving DecidableEq, Repr

/-- Collection: entries from `base` on until `need` of them are in, or it ends; `fuel` bounds the words (R354). -/
def State.collect (s : State) (base : DWord) (need : Nat) : Nat → DWord → Window → Window
  | 0, _, x => x
  | fuel + 1, va, x =>
    if need ≤ x.ents.length ∨ 8 ≤ x.ents.length ∨ 64 ≤ (va - base).toNat then x
    else if (s.cx.breakAt va).isSome then x
    else
      match s.look va with
      | .fill q => { x with wait := some (.fill q) }
      | .check (.raise _) => x
      | .check c => { x with wait := some (.check c) }
      | .word w lit =>
        let e : WWord := { pc := va, w := w, lit := lit }
        let next := va + BitVec.ofNat 64 (sizeOf4 w)
        match roleOf w lit with
        | .entry => s.collect base need fuel next { x with ents := x.ents ++ [e] }
        | .inert => s.collect base need fuel next { x with inert := x.inert ++ [(x.ents.length, e)] }
        | .separator => x
        | .flush => x

/-! ### Matching (R356, R357) -/

/-- The variables bound so far, by number. -/
abbrev Vars := List (Nat × Nat)

/-- The value of a variable. -/
def varOf (v : Vars) (x : Nat) : Nat := SMap.get 0 v x

/-- The captures of a word, in order; a variable captured before must agree. -/
def bindCaps (w : Word) : List (BitVec 16) → Vars → Option Vars
  | [], v => some v
  | d :: t, v =>
    if descEn d then
      let x := w.toNat / 2 ^ descLsb d % 2 ^ descWidth d
      match v.find? (·.1 == descVar d) with
      | some y => if y.2 = x then bindCaps w t v else none
      | none => bindCaps w t (v ++ [(descVar d, x)])
    else bindCaps w t v

/-- One slot against one word. -/
def slotMatch (img : List Word) (slot : Nat) (w : Word) (v : Vars) : Option Vars :=
  let m := imageWord img (8 + slot)
  if w &&& m = imageWord img (4 + slot) &&& m then bindCaps w (ruleCaptures img slot) v else none

/-- The slots of a rule against consecutive entries. -/
def slotsMatch (img : List Word) : Nat → List WWord → Vars → Option Vars
  | _, [], v => some v
  | slot, e :: t, v =>
    match slotMatch img slot e.w v with
    | some v' => slotsMatch img (slot + 1) t v'
    | none => none

/-- The scalar registers an entry reads. -/
def entryReads (e : WWord) : List Nat :=
  match decode e.w e.lit with
  | .ok (.tscl _ a _ _) => [a.toNat]
  | .ok (.tld d a side _ _ _) => rangeFrom a.toNat 3 ++ if side then rangeFrom d.toNat 2 else []
  | .ok (.tst d a side _ _ _) => rangeFrom a.toNat 3 ++ if side then rangeFrom d.toNat 2 else []
  | _ => []

/-- An entry writes SCC: `bclr` or `awr` with PAIR = 1. -/
def entryScc (e : WWord) : Bool :=
  match decode e.w e.lit with
  | .ok (.bclr _ _ pair) => pair
  | .ok (.awr _ _ _ _ pair) => pair
  | _ => false

/-- The scalar register an inert instruction writes. -/
def inertWrites (e : WWord) : Option Nat :=
  if opcodeOf e.w = 1 then none
  else
    match bodyOf e.w with
    | some (.RRR d ..) => some d.toNat
    | some (.RI d ..) => some d.toNat
    | some (.X d ..) => some d.toNat
    | some (.S p ..) => some p.toNat
    | _ => none

/-- The system register an inert `rdsr` reads. -/
def inertSysreg (e : WWord) : Option Nat :=
  if opcodeOf e.w = 0x3A then (match bodyOf e.w with | some (.S _ _ k) => some k.toNat | _ => none) else none

/-- An inert instruction reads or writes SCC (R282): `sadd`, `saddi`, `ssub`, compares, `ssel`, and a read of `%scc`. -/
def inertScc (e : WWord) : Bool :=
  let op := opcodeOf e.w
  (decide (2 ≤ op) && decide (op ≤ 4)) || (decide (0x14 ≤ op) && decide (op ≤ 0x1A)) || inertSysreg e == some 4

/-- An inert instruction of the span stands in the way (R356). -/
def hazard (ents : List WWord) (inert : List (Nat × WWord)) : Bool :=
  inert.any fun p =>
    (match inertWrites p.2 with | some r => (ents.drop p.1).any fun e => (entryReads e).contains r | none => false) ||
      (inertScc p.2 && ents.any entryScc) ||
      (match inertSysreg p.2 with | some k => decide (0x40 ≤ k) && decide (k ≤ 0x4F) | none => false)

/-- What a predicate comes to. -/
inductive PredRes where
  | fails
  | holds (v : Vars)
  /-- the scalar register it names is empty -/
  | empty (r : Nat)
  deriving DecidableEq, Repr

/-- A handle by the value of a variable; none when there is none of that number, or it is not defined. -/
def State.varHandle (s : State) (n : Nat) : Option Handle :=
  if n < 32 then (if (s.tm.handle n).defined then some (s.tm.handle n) else none) else none

/-- An IEEE tag (R135). -/
def ieeeTag (t : BitVec 5) : Bool := t == 3 || t == 4 || t == 5 || t == 8

/-- σ of an f32 equal to ±2^σ with σ from −4 to 3 (R363). -/
def pow2Of (w : Word) : Option Int :=
  let e : Int := (fieldN w 30 23 : Nat) - 127
  if fieldN w 22 0 = 0 ∧ -4 ≤ e ∧ e ≤ 3 then some e else none

/-- One predicate (R363). -/
def State.pred (s : State) (p : BitVec 16) (v : Vars) : PredRes :=
  let x := varOf v (predX p)
  match predKind p with
  | 0 => .holds v
  | 1 =>
    match s.varHandle x, s.varHandle (varOf v (predY p)) with
    | some a, some b =>
      if a.tag = b.tag ∧ a.lrows = b.lrows ∧ a.lcols = b.lcols ∧ a.sblk = false ∧ b.sblk = false ∧
          ¬ (ieeeTag a.tag = true ∧ s.g.ftz = true) then .holds v
      else .fails
    | _, _ => .fails
  | 4 =>
    match s.varHandle x, s.varHandle (varOf v (predY p)) with
    | some a, some b => if a.hit b.ranges then .fails else .holds v
    | _, _ => .fails
  | k =>
    if 64 ≤ x ∨ s.g.holdsS x = false then .fails
    else if s.g.isEmptyS x then .empty x
    else
      match pow2Of (s.g.sreg x) with
      | none => .fails
      | some e =>
        if k = 3 ∧ e ≠ 0 then .fails
        else .holds ((predOut p, (if (s.g.sreg x).getLsbD 31 then 8 else 0) + (e % 8).toNat) :: v)

/-- What a rule comes to at an entry. -/
inductive Verdict where
  | no
  | hazard
  | empty (r : Nat)
  | yes (v : Vars)
  deriving DecidableEq, Repr

/-- A rule at the oldest entry of a window (R356, R357, R370). -/
def State.verdict (s : State) (img : List Word) (x : Window) : Verdict :=
  let n := ruleNpat img
  let ents := x.ents.take n
  if ents.length < n ∨ (ents.any fun e => hasTrapBit e.w || s.g.replay.contains e.pc) then .no
  else
    match slotsMatch img 0 ents [] with
    | none => .no
    | some v =>
      if hazard ents (x.inert.filter fun p => decide (p.1 < n)) then .hazard
      else
        match s.pred ((rulePreds img).getD 0 0) v with
        | .fails => .no
        | .empty r => .empty r
        | .holds v1 =>
          match s.pred ((rulePreds img).getD 1 0) v1 with
          | .fails => .no
          | .empty r => .empty r
          | .holds v2 => .yes v2

/-! ### The decision (R355) -/

/-- What the stage decides about its oldest entry. -/
structure Decision where
  best : Option (Nat × List Word × Vars) := none
  denied : Nat := 0
  hazards : Nat := 0
  empty : Option Nat := none
  deriving DecidableEq, Repr

/-- MODE.GRAFT permits a class (R131, R355). -/
def Group.permits (g : Group) (cls : Nat) : Bool := g.mode.getLsbD (12 + cls)

/-- The valid rules, in ascending order. -/
def Ctx.rules (c : Ctx) : List (Nat × List Word) := c.graft.filter fun p => ruleValid p.2

/-- `decide(e)` over the table. -/
def State.decideRules (s : State) (x : Window) : Decision :=
  s.cx.rules.foldl
    (fun (d : Decision) (p : Nat × List Word) =>
      match s.verdict p.2 x with
      | .no => d
      | .hazard => { d with hazards := d.hazards + 1 }
      | .empty r => { d with empty := d.empty.or (some r) }
      | .yes v =>
        if s.g.permits (ruleClass p.2) then
          match d.best with
          | none => { d with best := some (p.1, p.2, v) }
          | some b => if ruleNpat b.2.1 < ruleNpat p.2 then { d with best := some (p.1, p.2, v) } else d
        else { d with denied := d.denied + 1 }) {}

/-- How many entries settle every rule whose first slot the oldest entry meets. -/
def State.needed (s : State) (e : WWord) : Nat :=
  s.cx.rules.foldl
    (fun (n : Nat) (p : Nat × List Word) => if (slotMatch p.2 0 e.w []).isSome then max n (ruleNpat p.2) else n) 1

/-- A saturating 32-bit counter raised (R367). -/
def satAdd (x : Word) (n : Nat) : Word := BitVec.ofNat 32 (min (x.toNat + n) 0xFFFFFFFF)

/-- A counter of the graft table raised (R367): 0 ADMITTED, 1 MATCHED, 2 REPLAYED, 3 DENIED, 4 HAZARD. -/
def State.graftAdd (s : State) (k n : Nat) : State :=
  s.modCx fun c => { c with graftCnt := SMap.modify 0 c.graftCnt k (satAdd · n) }

/-! ### Noting an issue for the sampler (R406) -/

/-- What a group issued, or raised at, noted for the sampler; inside a unit, the instruction that was tagged stays. -/
def State.note (s : State) (pc : DWord) (w exec : Word) (code : Nat) (graft : Bool) : State :=
  if s.tagDue s.g.core s.g.slot then s
  else
    (s.modG fun g =>
      { g with lastPc := pc, lastWord := w, lastExec := exec, lastCode := BitVec.ofNat 8 code, lastGraft := graft }).noteIssue

/-! ### A unit (R358, R368 to R370) -/

/-- An instruction of a unit: the PC it goes by, its word, what it decodes to, its place among the replacements (3 for an
inert instruction), and the term its destination's bound takes. -/
structure Part where
  pc : DWord
  w : Word
  instr : Option Instr
  idx : Nat
  term : Word := 0
  deriving DecidableEq, Repr

/-- A replacement word with its substitutions made (R362). -/
def substitute (w : Word) : List (BitVec 16) → Vars → Word
  | [], _ => w
  | d :: t, v =>
    if descEn d then
      let x := varOf v (descVar d) % 2 ^ descWidth d
      let old := w.toNat / 2 ^ descLsb d % 2 ^ descWidth d
      substitute (BitVec.ofNat 32 (w.toNat - old * 2 ^ descLsb d + x * 2 ^ descLsb d)) t v
    else substitute w t v

/-- The instruction of a word. -/
def instrOf (w lit : Word) : Option Instr := match decode w lit with | .ok i => some i | .error _ => none

/-- An entry whose destination holds a bound (R227). -/
def holdsBound (w : Word) : Bool := entryOp (opcodeOf w) && !([0xC6, 0xCA, 0xCB].contains (opcodeOf w))

/-- The parts of a unit: the replacements, the last bound-holding one with TERM, then the inert instructions of the span. -/
def unitParts (img : List Word) (v : Vars) (pc0 : DWord) (inert : List WWord) : List Part :=
  let ws := (List.range (ruleNrep img)).map fun r => (r, substitute (imageWord img (20 + r)) (ruleSubsts img r) v)
  let last := ((ws.filter fun p => holdsBound p.2).map (·.1)).getLast?
  (ws.map fun p =>
    { pc := pc0, w := p.2, instr := instrOf p.2 0, idx := p.1
      term := if last = some p.1 then boundOfReg (imageWord img 2) else 0 : Part }) ++
    inert.map fun e => { pc := e.pc, w := e.w, instr := instrOf e.w e.lit, idx := 3 : Part }

/-- The rewrite record (R369). -/
def rewriteRecord (replay : Bool) (rule idx : Nat) (ents : List WWord) : Word :=
  let off := fun (i : Nat) => match ents[i]?, ents[0]? with | some e, some o => (e.pc - o.pc).toNat / 4 % 16 | _, _ => 0
  BitVec.ofNat 32 (2 ^ 31 + (if replay then 2 ^ 30 else 0) + rule % 64 * 2 ^ 24 + idx % 4 * 2 ^ 20 + ents.length % 8 * 2 ^ 17 +
    off 1 * 2 ^ 8 + off 2 * 2 ^ 4 + off 3)

/-- Originals that R349 counts: every entry but `ttrans` and `swpw`. -/
def countedEntry (e : WWord) : Bool := !([0xC2, 0xCB].contains (opcodeOf e.w))

/-- Originals that advance `%dphase` (R211). -/
def phaseEntry (e : WWord) : Bool := [0xC4, 0xCE].contains (opcodeOf e.w)

/-- One instruction of a unit on a state: its outcome's state. -/
def State.runPart (s : State) (rcd : Word) (forced : Bool) (p : Part) : State :=
  let s1 := s.modG fun g => { g with pc := p.pc, rule := some rcd, term := p.term, forced := forced, st := .issuing }
  match p.instr with
  | none => s1.raiseAt (illegal 0) p.pc
  | some i => match exec i s1 with | .next t => t | .fault _ => s1 | .refused _ => s1

/-- A trial of an instruction waited. -/
def State.waited (s : State) : Bool := s.g.st == .stalled || s.g.st == .blocked

/-- The group as it stood, with what a trial's wait records. -/
def State.unitWait (s t : State) : State :=
  { t with
    g := { t.g with
      pc := s.g.pc, rule := none, unitRaise := none, term := s.g.term, forced := false } }

/-- The ids of the counted operations that a unit has put in flight since `from_`. -/
def State.unitOps (s : State) (from_ : Nat) : List Nat :=
  ((s.tops.filter fun x => x.g == s.g.key && decide (from_ ≤ x.id) &&
      (match x.kind with | .swp => false | .trn .. => false | _ => true)).map (·.id)) ++
    (s.allSteps.filter fun x => x.2.g == s.g.key && decide (from_ ≤ x.2.id)).map (·.2.id)

/-- A unit begun: its instructions issue without a gap, the MMA counter and, once its operations have completed, `%dphase` are left
as the originals leave them, and the PC lies behind the last original (R358). A handle of a DEAD variable holds what the replacements leave (R360; assumption
log 66). -/
def State.unitRun (s : State) (rcd : Word) (ents : List WWord) (parts : List Part) : State :=
  let from_ := s.fresh
  let n := (ents.filter countedEntry).length
  let phase : Nat := if s.g.mode.getLsbD 23 then 13 * (ents.filter phaseEntry).length else 0
  let next := match ents.getLast? with | some e => e.pc + 4 | none => s.g.pc
  let s1 := parts.foldl
    (fun (t : State) (p : Part) => (t.runPart rcd true p).note p.pc p.w t.g.exec 0 true) s
  let s2 := s1.modG fun g =>
    { g with rule := none, term := 0, forced := false, pc := next }
  match (s2.unitOps from_).foldl (fun (m : Option Nat) (i : Nat) => some (match m with | some j => max i j | none => i)) none with
  | some id => s2.modG fun g =>
    { (List.range n).foldl (fun (h : Group) (_ : Nat) => h.addOp 3 id) g with
      unitPhase := if phase = 0 then g.unitPhase else g.unitPhase ++ [(id, BitVec.ofNat 5 phase)] }
  | none => s2.modG fun g => { g with dphase := g.dphase + BitVec.ofNat 5 phase }

/-- A match issued as a unit: it waits while one of its instructions would, reports the first check that fails, or runs. Its originals
are admitted also where a check fails (R367; assumption log 63). -/
def State.unitIssue (s : State) (rule : Nat) (ents : List WWord) (parts : List Part) : State :=
  let rcd := rewriteRecord false rule 3 ents
  let trial := fun (p : Part) => s.runPart rcd false p
  match parts.find? fun p => (trial p).waited with
  | some p => s.unitWait (trial p)
  | none =>
    if counterCheck s.g 3 (ents.filter countedEntry).length = .ok then
      match parts.find? fun p => (trial p).g.unitRaise.isSome with
      | some p =>
        match (trial p).g.unitRaise with
        | some r =>
          (((s.modG fun g =>
            { g with rwrec := rewriteRecord true rule p.idx ents, rwpc := s.g.pc, replay := ents.map (·.pc) }).deliver r
            s.g.pc).graftAdd 0 ents.length).note s.g.pc p.w s.g.exec r.code.num true
        | none => s
      | none =>
        ((((s.unitRun rcd ents parts).graftAdd 0 ents.length).graftAdd 1 1).modCx fun c =>
          { c with matchCnt := SMap.modify 0 c.matchCnt rule (satAdd · 1) })
    else s.waitAt .counter .resource

/-! ### Issue of the next instruction -/

/-- An instruction executed as itself and noted, unless it waits. -/
def State.issueInstr (s : State) (w : Word) (i : Instr) : Host.Outcome State Fault Refusal :=
  match exec i s with
  | .next t =>
    if t.waited || t.g.key != s.g.key then .next t else .next (t.note s.g.pc w s.g.exec t.g.lastCode.toNat false)
  | .fault f => .fault f
  | .refused r => .refused r

/-- An entry that takes part in no match: issued as itself, and counted (R367). -/
def State.issueEntry (s : State) (w : Word) (i : Instr) (d : Decision) : Host.Outcome State Fault Refusal :=
  match s.issueInstr w i with
  | .next t =>
    if t.waited || t.g.key != s.g.key then .next t
    else .next (((t.graftAdd 0 1).graftAdd 3 d.denied).graftAdd 4 d.hazards)
  | .fault f => .fault f
  | .refused r => .refused r

/-- An entry at the PC: the decision of R355, then a unit or the entry itself. -/
def State.issueGraft (s : State) (e : WWord) (i : Instr) : Host.Outcome State Fault Refusal :=
  if s.cx.rules.isEmpty || hasTrapBit e.w || s.g.replay.contains e.pc then s.issueEntry e.w i {}
  else
    let x := s.collect e.pc (s.needed e) 16 (e.pc + 4) { ents := [e] }
    match x.wait with
    | some l => .next (s.lookFails l)
    | none =>
      let d := s.decideRules x
      match d.empty, d.best with
      | some r, _ => .next (s.waitAt .empty ((sOpd (BitVec.ofNat 7 r) 1).emptyWait s.g))
      | none, some (k, img, v) =>
        let n := ruleNpat img
        let parts := unitParts img v e.pc ((x.inert.filter fun p => decide (p.1 < n)).map (·.2))
        let t := s.unitIssue k (x.ents.take n) parts
        .next (if t.waited then t else (t.graftAdd 3 d.denied).graftAdd 4 d.hazards)
      | none, none => s.issueEntry e.w i d

/-- The instruction at the PC of the focused group: fetched, decoded, and issued (R125, R142, R353). -/
def State.issueHere (s : State) : Host.Outcome State Fault Refusal :=
  match s.look s.g.pc with
  | .check c => .next (s.refuse c)
  | .fill q => .next (s.lookFails (.fill q))
  | .word w lit =>
    match decode w lit with
    | .error _ => .next (s.raiseAt (illegal 0) s.g.pc)
    | .ok i =>
      if roleOf w lit = .entry ∧ (s.cx.breakAt s.g.pc).isNone = true then s.issueGraft { pc := s.g.pc, w := w, lit := lit } i
      else s.issueInstr w i

end Sys2Proof.Machine
end

