-- ==== Sys2Proof/Machine/Agenda.lean ====
section
/-! DEFINITION. What can happen next: the steps that are enabled, the group each slot issues from, and what every step ends
with (R245, R246, R262, R263, R416, R429, R470; assumption log 4). -/

namespace Sys2Proof.Machine

/-! ### What may issue -/

/-- A group may issue: ready, not held, nothing pending at its boundary, its context not halted or STEP in force for it. While a
save request is on its way, and while a save is under way, the groups that defer it go on (R392). -/
def State.mayIssue (s : State) (g : Group) : Bool :=
  (g.st == .ready || g.st == .issuing) && !g.inProgress && g.held.isEmpty && g.late.isNone && g.bounds.isEmpty &&
    decide (g.wdcount < g.wdLimit) &&
    match s.ctx? g.ctx with
    | some c => c.halt == .lowered && (c.cut.isNone || (c.cut == some 2 && g.tr.tmask)) && (!c.debugHalt || g.stepping)
    | none => false

/-- The current group of a slot, where it may issue (R262). -/
def State.currentOf (s : State) (core slot : Nat) : Option Nat :=
  match SMap.get none (s.core core).current slot with
  | some k => match s.group? k with | some g => if g.core == core && g.slot == slot && s.mayIssue g then some k else none | none => none
  | none => none

/-! ### An issue attempt -/

/-- The focused group's next instruction, its breakpoints first (R416, R417) and, at a traced group's first issue, the SYNC of
reason 1 (R470). -/
def State.attempt (s : State) : Host.Outcome State Fault Refusal :=
  match if s.g.bpSkip then none else s.cx.breakAt s.g.pc with
  | some k =>
    let info := BitVec.ofNat 12 (0xFF0 + k)
    .next (if s.cx.attach then s.debugBreak (SMap.get {} s.cx.bps k).act info
      else s.deliver { code := .breakpoint, info := info } s.g.pc)
  | none =>
    if s.g.trc.startDue then
      match ((s.emit (.sync 1)).modG fun g => { g with trc := { g.trc with startDue := false } }).issueHere with
      | .next t => if t.waited then s.issueHere else .next t
      | .fault f => .fault f
      | .refused r => .refused r
    else s.issueHere

/-- The focused group issues from its slot: it becomes the current group unless another is and can go on (R262), no other group of the
slot is issuing (R245), and its fetch uses a line of the instruction cache (R143). -/
def State.claimSlot (s : State) : State :=
  let core := s.g.core
  let slot := s.g.slot
  State.useFetched <| { s with
    others := s.others.map fun (h : Group) =>
      if h.live && h.core == core && h.slot == slot && h.st == GState.issuing then { h with st := GState.ready } else h
  }.modCore core fun c => { c with current := SMap.set none c.current slot (some ((s.currentOf core slot).getD s.g.key)) }

/-- After an issue: the deadlock walk sees that the group has moved on (R399), and STEP ends (R418). -/
def State.issued (s : State) (k : Nat) : State :=
  (s.mapCtxs fun c => { c with walkSnap := c.walkSnap.map fun l => l.filter (·.1 != k) }).restop k

/-- A group issues. -/
def State.issueFrom (s : State) (k : Nat) : Host.Outcome State Fault Refusal :=
  match (s.focus k).claimSlot.attempt with
  | .next t => .next (if t.waited then t else t.issued k)
  | .fault f => .fault f
  | .refused r => .refused r

/-! ### What every step ends with -/

/-- A group that waits would do so again: its next attempt changes nothing (R245, R246). -/
def State.stillWaits (s : State) (k : Nat) : Bool :=
  let s1 := s.focus k
  match s1.attempt with
  | .next t => decide (t = s1)
  | _ => false

/-- Groups whose wait is over become ready; a group that leaves BLOCKED has its watchdog count cleared (R245, R248). -/
def State.wake (s : State) : State :=
  ((s.groups.filter fun g => (g.st == .stalled || g.st == .blocked) && !g.inProgress).map (·.key)).foldl
    (fun (t : State) (k : Nat) =>
      if t.stillWaits k then t
      else
        let blocked : Bool := match t.group? k with | some g => g.st == .blocked | none => false
        let t1 := t.modGroup k fun g =>
          { g with st := .ready, reason := .none, wait := .none, wdcount := if g.st == .blocked then 0 else g.wdcount }
        if blocked then t1.mapCtxs fun c => { c with walkSnap := c.walkSnap.map fun l => l.filter (·.1 != k) } else t1) s

/-- A group that has left READY and ISSUING through FROZEN, STOPPED or ENDED holds no other group (R263). -/
def State.unhold (s : State) : State :=
  if s.groups.all fun g => g.held.isEmpty then s
  else
    let gone := fun (k : Nat) =>
      match s.group? k with | some g => g.st == .frozen || g.st == .stopped || g.st == .ended | none => true
    s.mapGroups fun g => { g with held := g.held.filter fun k => !gone k }

/-- The end of a step. -/
def State.finish (s : State) : State := s.unhold.wake

/-! ### What is enabled -/

/-- A step of the machine's own: the meaning of one row, its arguments given. -/
abbrev Move := State → Host.Outcome State Fault Refusal

/-- Something that can come next. -/
inductive Task where
  /-- a step of the machine's own -/
  | event (m : Move)
  | issue (g : Nat)
  /-- the next input from outside -/
  | input (i : Instr)

/-- A step changes something. -/
def State.changes (s : State) (m : Move) : Bool :=
  match m s with
  | .next t => !decide (t = s)
  | _ => true

/-- The command at the head of the queue (R429, R430, R419). -/
def SqEntry.event (e : SqEntry) : Move :=
  match e.kind with
  | 2 => execPreempt
  | 3 => execRestore
  | 4 =>
    match e.arg 0 % 256 with
    | 0x40 => execAttach
    | 0x41 => execHalt
    | 0x42 => execResume
    | 0x43 => execFreeze
    | 0x44 => execThaw
    | 0x45 => execStep
    | 0x46 => execSetbp
    | 0x47 => execDebugIcinv
    | 0x48 => execDump
    | 0x49 => execWrreg
    | _ => execJob
  | 5 => execGrant
  | 6 => execReclaim
  | 7 => execCreate
  | 8 => execTeardown
  | 9 => execAttest
  | _ => execJob

/-- Steps about one group. -/
def Group.events (g : Group) : List Move :=
  (if g.late.isSome || !g.bounds.isEmpty then [execTrapEntry g.key] else []) ++
  (if g.wdLimit ≤ g.wdcount then [execWatchdog g.key] else []) ++
  (match g.mon with | some m => if m.cause.isSome then [execMonitorEnd g.key] else [] | none => []) ++
  (if g.atoms.any fun a => !a.replies.isEmpty then [execAtomicReply g.key] else []) ++
  (if g.rets.isEmpty then [] else [execLoadReturn g.key])

/-- Steps about one coherence request. -/
def CohReq.events (q : CohReq) : List Move :=
  if !q.taken then [if q.write then execGetw q.grove q.line q.first q.n else execGets q.grove q.line q.first q.n]
  else if q.msgs.isEmpty then [execCoherenceGrant q.g]
  else q.msgs.map fun m =>
    match m.2.1 with
    | .recall => execRecall m.1 q.line m.2.2
    | .inv => execInv m.1 q.line m.2.2
    | .binv => execBinv m.1 q.line

/-- Steps about one engine request. -/
def EngReq.events (e : EngReq) : List Move :=
  if !e.running then [execEngineRequestStart e.core e.cls]
  else
    match e.cls with
    | 0 => [execEngineChunkDone e.core e.id]
    | 1 => [execGatherBatch e.core e.id]
    | _ => [execCopyReduceUpdate e.core e.id]

/-- Steps about one array. -/
def ArrayUnit.events (u : ArrayUnit) (gr : Nat) : List Move :=
  match u.started with
  | some x => [if x.wantReissue then execReissue gr x.bank else execArrayStepEnd gr]
  | none => if u.queue.isEmpty then [] else [execArrayStepStart gr]

/-- Steps about one team. -/
def State.teamEvents (s : State) (t : Team) : List Move :=
  (if t.zeroed then [] else [execLocalStoreDrain t.key, execWindowZeroFill t.key]) ++
  if s.teamDone t then [execTeamComplete t.key] else []

/-- Steps about one shootdown. -/
def Shoot.events (q : Shoot) : List Move :=
  if !q.accepted then [execShootdownAccept q.ctx]
  else (q.toInv.map fun k => execShootdownInvalidation q.ctx k) ++ q.toAck.map fun k => execShootdownAck q.ctx k

/-- Steps about one context. -/
def Ctx.events (c : Ctx) : List Move :=
  (if c.halt = .raised ∨ c.cut = some 3 then [execFaultHalt c.num] else []) ++
  (if c.halt = .stopped then [execContainment c.num] else []) ++
  (if c.isSaving && c.cut == some 2 then [execSaveRequest c.num] else []) ++
  (if c.isSaving then [execContextSave c.num] else []) ++
  (c.units.filter fun u => c.poolStarts u).map fun u => execPoolStart c.num u.key

/-- Steps about one core: its tagged instructions and its stage of trace blocks. -/
def Core.events (c : Core) (n : Nat) : List Move :=
  (c.tagged.map fun q => execTaggedRecord n q.1) ++ if c.stage.isEmpty then [] else [execTraceBlockWrite n]

/-- A placement is possible, or a deferral is still to be counted (R67, R259). -/
def State.mayDecide (s : State) (die : Nat) : Bool := (s.decide? die).isSome || !(s.deferrals die).isEmpty

/-- A context waits for its restore: one that the host has asked for, or one that the heartwood core has pre-empted itself (R392,
R396). -/
def Ctx.awaitsRestore (c : Ctx) : Bool := c.preempt == .restoring || (c.hwOwn && c.preempt == .saved)

/-- The steps of the machine's own that may be enabled. -/
def State.internal (s : State) : List Move :=
  s.groups.flatMap Group.events ++
  s.allCtxs.flatMap Ctx.events ++
  (List.range s.walks.length).map execTableWalk ++
  (List.range s.fills.length).map execFetchFill ++
  s.shoots.flatMap Shoot.events ++
  s.coh.flatMap CohReq.events ++
  ((s.groves.filter fun p => !p.2.svcq.isEmpty).map fun p => execAtomicRequest p.1) ++
  s.engs.flatMap EngReq.events ++
  (s.subs.map fun b => if b.store then execStorerDrain (b.team * 8 + b.handle) else execLoaderFill (b.team * 8 + b.handle)) ++
  (s.tops.map fun x => execTileTransferDone x.id) ++
  (s.arrays.flatMap fun p => p.2.events p.1) ++
  s.allTeams.flatMap s.teamEvents ++
  (s.cores.flatMap fun p => p.2.events p.1) ++
  ((s.dev.ho.filter fun p => p.2.code == 1).flatMap fun p => [execToHost (BitVec.ofNat 6 p.1), execToDevice (BitVec.ofNat 6 p.1)]) ++
  (match s.sqHead with | some e => [e.event] | none => []) ++
  (if s.allCtxs.any Ctx.awaitsRestore then [execRestore] else []) ++
  (s.looped.map FabTxn.event) ++
  if s.allCtxs.any fun c => !c.units.isEmpty then
    ((List.range 4).filter s.mayDecide).map execPlacementDecision
  else []

/-- The group a slot issues from: its current group while it can, else the oldest (R262). -/
def State.slotChoice (s : State) (core slot : Nat) : Option Nat :=
  match s.currentOf core slot with
  | some k => some k
  | none => (oldest (s.groups.filter fun g => g.core == core && g.slot == slot && s.mayIssue g)).map (·.key)
where
  /-- The group of a list with the lowest age. -/
  oldest : List Group → Option Group
    | [] => none
    | g :: t =>
      match oldest t with
      | none => some g
      | some h => if g.age ≤ h.age then some g else some h

/-- The slots that can issue, each with its group. -/
def State.issuable (s : State) : List Nat :=
  (((s.groups.filter s.mayIssue).map fun g => (g.core, g.slot)).eraseDups).filterMap fun p => s.slotChoice p.1 p.2

/-- A slot whose last issue is to be tagged: nothing comes before that (R406). -/
def State.tagTask (s : State) : Option Task :=
  s.cores.findSome? fun p =>
    ((p.2.countdown.map (·.1)).find? fun q => s.tagDue p.1 q).map fun q => .event (execSampleTag p.1 q)

/-- Groups that may issue in place of their slot's current group while that needs a unit that is busy (R262). -/
def State.stands (s : State) : List Nat :=
  (s.groups.filter fun g => s.mayIssue g && !(s.issuable.contains g.key)).map (·.key)

/-- Everything that can come next, in the model's order (assumption log 4). -/
def State.tasks (s : State) : List Task :=
  ((s.internal.filter s.changes).map Task.event) ++ s.issuable.map Task.issue ++
    (match s.inputs with | i :: _ => [.input i] | [] => []) ++ s.stands.map Task.issue

/-- What comes next: the task that the head of `schedule` picks; none when nothing is enabled. -/
def State.pick (s : State) : Option Task :=
  match s.tagTask with
  | some t => some t
  | none =>
    match s.schedule with
    | [] => s.tasks.head?
    | n :: _ => s.tasks[n % s.tasks.length]?

/-- The step counter, the package time and the schedule go on, and the next soft error strikes (R58). -/
def State.tick (s : State) : State :=
  let t := match s.soft with | e :: _ => s.softError e | [] => s
  { t with
    steps := s.steps + 1, schedule := s.schedule.tail, soft := s.soft.tail
    dev := { t.dev with time := s.dev.time + BitVec.ofNat 64 (Config.ticks s.steps) } }

/-- A step with no encoding (R129): what an input may be. -/
def isEvent (i : Instr) : Bool := i.fields.isNone

/-- A task carried out. -/
def State.perform (s : State) (t : Task) : Host.Outcome State Fault Refusal :=
  match t with
  | .event m => m s
  | .issue k => s.issueFrom k
  | .input i =>
    let s1 := { s with inputs := s.inputs.tail }
    if isEvent i then exec i s1 else .next s1

/-- The next step: a task, then what every step ends with; time alone passes when nothing is enabled. -/
def State.advance (s : State) : Host.Outcome State Fault Refusal :=
  match s.pick with
  | none => .next s.tick
  | some t =>
    match s.tick.perform t with
    | .next u => .next u.finish
    | .fault f => .fault f
    | .refused r => .refused r

end Sys2Proof.Machine
end

