-- ==== Sys2Proof/Machine/Fetch.lean ====
section
/-! DEFINITION. A loaded program of one instruction (assumption log 15): the context, team, group and cached translation that a
step needs to fetch it. -/

namespace Sys2Proof.Machine

/-- The virtual and physical address of the instruction. -/
def fetchPc : Nat := 0x10000

/-- The context of the instruction. -/
def fetchCtx : Ctx := { live := true, num := 1, partAll := true }

/-- Its team. -/
def fetchTeam (key : Nat) : Team := { live := true, key := key, ctx := 1, size := 1, zeroed := true }

/-- Its group: privileged, with every register allocated, at the instruction. -/
def fetchGroup (key team : Nat) : Group :=
  { live := true, key := key, ctx := 1, team := team, priv := true, st := .ready, stLeft := .ready
    pc := BitVec.ofNat 64 fetchPc }

/-- Its translation in the core's micro-TLB: the page on the frame of the same number, readable, writable, executable. -/
def fetchEntry : TlbEntry :=
  { ctx := 1, gen := 0, size := 65536, vpage := fetchPc / 65536, frame := fetchPc / 65536, cls := 0, home := 0, x := true, w := true,
    cow := false, shared := false }

/-- The first `n` bytes of an instruction stored where the group fetches, in memory and in the core's instruction cache. -/
def State.placeInstr (s : State) (n x : Nat) : State :=
  let mem := writeNat s.mem fetchPc n x
  { s with
    g := fetchGroup s.fresh (s.fresh + 1), others := if s.g.live then s.g :: s.others else s.others
    tm := fetchTeam (s.fresh + 1), teams := if s.tm.live then s.tm :: s.teams else s.teams
    cx := fetchCtx, ctxs := if s.cx.live then s.cx :: s.ctxs else s.ctxs
    fresh := s.fresh + 2, mem := mem, schedule := []
    cores := SMap.modify {} s.cores 0 fun c =>
      { c with
        utlb := fetchEntry :: c.utlb
        icache := { ctx := 1, line := fetchPc / 128, words := lineWords mem (fetchPc / 128) } :: c.icache } }

end Sys2Proof.Machine
end

