-- ==== Sys2Proof/Machine/Step.lean ====
section
/-! DEFINITION. One step of the package, and the load of a program of one instruction. -/

namespace Sys2Proof.Machine

/-- One step: the next task of the agenda (assumption log 4). -/
def step (s : State) : Host.Outcome State Fault Refusal := s.advance

/-- `s` with an instruction placed where the next step fetches; `nbits` is 32 for a one-word instruction (assumption log 15). -/
def State.withFetchWord (s : State) (nbits w : Nat) : State := s.placeInstr 8 (w % 2 ^ nbits)

end Sys2Proof.Machine
end

