-- ==== Sys2Proof/Safety.lean ====
section
/-! DEFINITION. The words in which statements are made: operands that can be read, what an instruction may write, what it
leaves alone, and what it is for an instruction to have issued. -/

namespace Sys2Proof.Machine

/-! ### Operands -/

/-- s`n` is allocated (R242) and full (R139). -/
def Group.fullS (g : Group) (n : Nat) : Prop := (n < g.sregs ∨ n = 63) ∧ g.isEmptyS n = false

/-- v`n` is allocated and full. -/
def Group.fullV (g : Group) (n : Nat) : Prop := n < g.vregs ∧ g.isEmptyV n = false

/-- `cnt` scalar registers from a code of S space are allocated and full: an instruction may write them (R140). -/
def Group.openS (g : Group) (c : BitVec 7) (cnt : Nat := 1) : Prop := ∀ k, k < cnt → g.fullS (c.toNat + k)

/-- `cnt` registers from a code of V space are allocated and full (R126): vector registers below 96, scalars from there. -/
def Group.openX (g : Group) (c : BitVec 7) (cnt : Nat := 1) : Prop :=
  ∀ k, k < cnt → if c.toNat < 96 then g.fullV (c.toNat + k) else g.fullS (c.toNat - 96 + k)

/-- Some registers of V space that an instruction may write, which begin where a pair or a quad may (R127). -/
def Group.openP (g : Group) (c : BitVec 7) (cnt : Nat) : Prop :=
  g.openX c cnt ∧ (if c.toNat < 96 then c.toNat else c.toNat - 96) % cnt = 0

/-- A destination of MODE.TYPE: a register, or a pair for a 64-bit TYPE (R127, R298). -/
def Group.openT (g : Group) (c : BitVec 7) : Prop := g.openP c (if is64 g.type then 2 else 1)

/-- No word that a scalar source gives holds an uncorrectable error (R58). -/
def Group.soundS (g : Group) (n : Nat) : Prop := 4096 + n ∉ g.bad

/-- No word that a vector source gives in an active lane holds an uncorrectable error. -/
def Group.soundV (g : Group) (r : Nat) : Prop := ∀ l, l < 32 → laneBit g.active l = true → r * 32 + l ∉ g.bad

/-- Scalar sources from a code of S space: allocated, full and sound. -/
def Group.readyS (g : Group) (c : BitVec 7) (cnt : Nat := 1) : Prop :=
  g.openS c cnt ∧ ∀ k, k < cnt → g.soundS (c.toNat + k)

/-- Sources from a code of V space: allocated, full and sound. -/
def Group.readyX (g : Group) (c : BitVec 7) (cnt : Nat := 1) : Prop :=
  g.openX c cnt ∧ ∀ k, k < cnt → if c.toNat < 96 then g.soundV (c.toNat + k) else g.soundS (c.toNat - 96 + k)

/-- Sources of V space that begin where a pair or a quad may (R127). -/
def Group.readyP (g : Group) (c : BitVec 7) (cnt : Nat) : Prop :=
  g.readyX c cnt ∧ (if c.toNat < 96 then c.toNat else c.toNat - 96) % cnt = 0

/-- A source of MODE.TYPE. -/
def Group.readyT (g : Group) (c : BitVec 7) : Prop := g.readyP c (if is64 g.type then 2 else 1)

/-- Under TYPE 12 the codes of f[DFMT] are not block-scaled: they may be read and written one by one (R319). -/
def Group.codesPlain (g : Group) : Prop := g.type = 12 → (narrowFmt (g.fmt g.dfmt)).sblk = false

/-- The tags of an operand of MODE.TYPE are accepted where they are checked, under FMTTRAP = 1: a broadcast scalar has none
(R136, R138). -/
def Group.tagged (g : Group) (c : BitVec 7) : Prop :=
  g.fmtTrap = true → c.toNat < 96 → acceptsTag g.dfmt g.type (g.tag c.toNat) = true ∧
    (is64 g.type = true → acceptsTag g.dfmt g.type (g.tag (c.toNat + 1)) = true)

/-! ### Frames -/

/-- The address lies in one of some ranges. -/
def within (l : List (Nat × Nat)) (a : Nat) : Prop := ∃ r ∈ l, r.1 ≤ a ∧ a < r.1 + r.2

/-- The places an instruction may write. -/
structure Writes where
  /-- scalar registers, with their full/empty bits -/
  sregs : List Nat := []
  /-- vector registers, with their tags and full/empty bits -/
  vregs : List Nat := []
  fmts : List Nat := []
  scc : Bool := false
  cmask : Bool := false
  exec : Bool := false
  savedexec : Bool := false
  mode : Bool := false
  dphase : Bool := false
  chain : Bool := false
  /-- the trap registers of R377 -/
  trap : Bool := false
  /-- the translation, engine and bound fault records -/
  detail : Bool := false
  /-- byte ranges of memory -/
  mem : List (Nat × Nat) := []
  /-- byte ranges of the team's window -/
  win : List (Nat × Nat) := []
  /-- tile handles: those listed, or every one -/
  handles : List Nat := []
  anyHandle : Bool := false
  banks : Bool := false
  /-- the high words that reads of the clock and of counters latch -/
  latch : Bool := false
  /-- the outstanding counters -/
  counters : Bool := false
  /-- the registers of the context -/
  context : Bool := false
  /-- other groups -/
  others : Bool := false

/-- The registers of a context: PTROOT, reach, job tag, partition, frame lists, graft table, sampling, trace and breakpoint
registers (R20, R36, R402, R432, R438, R359). -/
def Ctx.sysregs (c : Ctx) : DWord × Word × BitVec 16 × (Word × Word) × (SMap Word × SMap Word) × SMap (List Word) ×
    (Word × Word) × (Word × Word) × (DWord × DWord) :=
  (c.ptroot, c.reach, c.jobTag, (c.partLo, c.partHi), (c.flHead, c.flCount), c.graft, (c.smpctl, c.trccfg),
    (c.dbgctl, c.bpctl), (c.smpring, c.trcring))

/-- Every place that is not listed holds what it held. -/
structure Keeps (w : Writes) (s t : State) : Prop where
  sregs : ∀ n, n ∉ w.sregs → t.g.sreg n = s.g.sreg n ∧ t.g.isEmptyS n = s.g.isEmptyS n
  vregs : ∀ r, r ∉ w.vregs → (∀ l, l < 32 → t.g.lane r l = s.g.lane r l) ∧ t.g.tag r = s.g.tag r ∧ t.g.isEmptyV r = s.g.isEmptyV r
  fmts : ∀ k, k ∉ w.fmts → t.g.fmt k = s.g.fmt k
  scc : w.scc = false → t.g.scc = s.g.scc
  cmask : w.cmask = false → t.g.cmask = s.g.cmask
  exec : w.exec = false → t.g.exec = s.g.exec
  savedexec : w.savedexec = false → t.g.savedexec = s.g.savedexec
  mode : w.mode = false → t.g.mode = s.g.mode
  dphase : w.dphase = false → t.g.dphase = s.g.dphase
  chain : w.chain = false → t.g.chain = s.g.chain
  trap : w.trap = false → t.g.tr = s.g.tr
  detail : w.detail = false →
    t.g.xva = s.g.xva ∧ t.g.xdet = s.g.xdet ∧ t.g.efva = s.g.efva ∧ t.g.efdet = s.g.efdet ∧ t.g.efsrc = s.g.efsrc ∧
      t.g.bxdet = s.g.bxdet ∧ t.g.bxpc = s.g.bxpc
  mem : ∀ a, ¬ within w.mem a → readByte t.mem a = readByte s.mem a
  win : ∀ o, ¬ within w.win o → winByte t.tm.win o = winByte s.tm.win o
  handles : w.anyHandle = false → ∀ n, n ∉ w.handles → t.tm.handle n = s.tm.handle n
  banks : w.banks = false → ∀ a n, t.bank a n = s.bank a n
  latch : w.latch = false → t.g.clockhi = s.g.clockhi ∧ t.g.pmchi = s.g.pmchi
  counters : w.counters = false → ∀ k, t.g.count k = s.g.count k
  /-- the record of a graft unit changes only where a replay ends (R370) -/
  rewrite : s.g.replay = [] → t.g.rwrec = s.g.rwrec ∧ t.g.rwpc = s.g.rwpc ∧ t.g.replay = []
  context : w.context = false → t.cx.sysregs = s.cx.sysregs
  /-- another group sees of this one only that it has issued (R263) and that its store hit a monitor (R168) -/
  others : w.others = false →
    t.others.map (fun h => { h with held := [], mon := none }) = s.others.map fun h => { h with held := [], mon := none }

/-- The group has issued an instruction and goes on at `npc` (R142, R245, R248). -/
structure Issued (s t : State) (npc : DWord) : Prop where
  pc : t.g.pc = npc
  wdcount : t.g.wdcount = s.g.wdcount + 1
  state : s.g.st ≠ .ended → s.g.st ≠ .stopped → t.g.st = .issuing

/-- An instruction completes: it issues and goes on at `npc`, writes nothing but `w`, and leaves what `P` says. -/
def Completes (i : Instr) (s : State) (npc : DWord) (w : Writes) (P : State → Prop) : Prop :=
  ∃ t, exec i s = .next t ∧ Issued s t npc ∧ Keeps w s t ∧ P t

/-! ### What the spec's tables say of results -/

/-- A row of the scalar tables: destination, sources, result, a new SCC, and how many words the instruction has. -/
structure ScalarRow where
  d : BitVec 7
  srcs : List (BitVec 7)
  x : Word
  scc : Option Bool := none
  words : Nat := 1

/-- The tables of R282 to R286: the result of a scalar instruction from the values of its sources. -/
def scalarRow (g : Group) (i : Instr) : Option ScalarRow :=
  let u := fun (c : BitVec 7) => (g.sreg c.toNat).toNat
  let z := fun (c : BitVec 7) => (g.sreg c.toNat).toInt
  let imm := fun (k : BitVec 9) => (BitVec.ofInt 32 k.toInt).toNat
  let two := fun (d a b : BitVec 7) (x : Word) => some { d := d, srcs := [a, b], x := x : ScalarRow }
  let one := fun (d a : BitVec 7) (x : Word) => some { d := d, srcs := [a], x := x : ScalarRow }
  let cmp := fun (d a b : BitVec 7) (c : Bool) => some { d := d, srcs := [a, b], x := if c then 1 else 0, scc := some c : ScalarRow }
  match i with
  | .sadd d a b _ _ =>
    some { d := d, srcs := [a, b], x := BitVec.ofNat 32 (u a + u b), scc := some (decide (2 ^ 32 ≤ u a + u b)) }
  | .saddi d a k _ =>
    some { d := d, srcs := [a], x := BitVec.ofNat 32 (u a + imm k), scc := some (decide (2 ^ 32 ≤ u a + imm k)) }
  | .ssub d a b _ _ => some { d := d, srcs := [a, b], x := BitVec.ofInt 32 ((u a : Int) - u b), scc := some (decide (u a < u b)) }
  | .smul d a b _ _ => two d a b (BitVec.ofNat 32 (u a * u b))
  | .smulhI d a b _ _ => two d a b (BitVec.ofInt 32 (z a * z b / 2 ^ 32))
  | .smulhN d a b _ _ => two d a b (BitVec.ofNat 32 (u a * u b / 2 ^ 32))
  | .sand d a b _ _ => two d a b (g.sreg a.toNat &&& g.sreg b.toNat)
  | .sor d a b _ _ => two d a b (g.sreg a.toNat ||| g.sreg b.toNat)
  | .sxor d a b _ _ => two d a b (g.sreg a.toNat ^^^ g.sreg b.toNat)
  | .sandn d a b _ _ => two d a b (g.sreg a.toNat &&& ~~~(g.sreg b.toNat))
  | .sshl d a b _ _ => two d a b (if u b < 32 then BitVec.ofNat 32 (u a * 2 ^ u b) else 0)
  | .sshr d a b _ _ => two d a b (if u b < 32 then BitVec.ofNat 32 (u a / 2 ^ u b) else 0)
  | .ssra d a b _ _ => two d a b (BitVec.ofInt 32 (z a / 2 ^ min (u b) 31))
  | .sshiShl d a n _ => one d a (BitVec.ofNat 32 (u a * 2 ^ n.toNat))
  | .sshiShr d a n _ => one d a (BitVec.ofNat 32 (u a / 2 ^ n.toNat))
  | .sshiSra d a n _ => one d a (BitVec.ofInt 32 (z a / 2 ^ n.toNat))
  | .sshiRor d a n _ => one d a ((g.sreg a.toNat).rotateRight n.toNat)
  | .sminI d a b _ _ => two d a b (BitVec.ofInt 32 (min (z a) (z b)))
  | .smaxI d a b _ _ => two d a b (BitVec.ofInt 32 (max (z a) (z b)))
  | .sminN d a b _ _ => two d a b (BitVec.ofNat 32 (min (u a) (u b)))
  | .smaxN d a b _ _ => two d a b (BitVec.ofNat 32 (max (u a) (u b)))
  | .scmpeq d a b _ _ => cmp d a b (decide (u a = u b))
  | .scmpne d a b _ _ => cmp d a b (decide (u a ≠ u b))
  | .scmpltI d a b _ _ => cmp d a b (decide (z a < z b))
  | .scmpleI d a b _ _ => cmp d a b (decide (z a ≤ z b))
  | .scmpltN d a b _ _ => cmp d a b (decide (u a < u b))
  | .scmpleN d a b _ _ => cmp d a b (decide (u a ≤ u b))
  | .ssel d a b _ _ => two d a b (if g.scc then g.sreg a.toNat else g.sreg b.toNat)
  | .sli d lit => some { d := d, srcs := [], x := lit, words := 2 }
  | .smovi d k => some { d := d, srcs := [], x := BitVec.ofInt 32 k.toInt }
  | .smov d a _ => one d a (g.sreg a.toNat)
  | .spopc d a _ => one d a (BitVec.ofNat 32 ((List.range 32).countP fun k => (g.sreg a.toNat).getLsbD k))
  | .sclz d a _ => one d a (BitVec.ofNat 32 (if u a = 0 then 32 else 31 - (u a).log2))
  | _ => none

/-- The condition of a branch (R287). -/
def branchRow (g : Group) : Instr → Option (Bool × BitVec 24)
  | .bra o => some (true, o)
  | .brs o => some (g.scc, o)
  | .brns o => some (!g.scc, o)
  | .brany o => some (decide (g.cmask &&& g.exec ≠ 0), o)
  | .brall o => some (decide (g.cmask &&& g.exec = g.exec), o)
  | .brnone o => some (decide (g.cmask &&& g.exec = 0), o)
  | _ => none

/-- A row of the vector tables: whether TYPE is accepted, destination, sources of MODE.TYPE with their tags checked, and the
bits of element `j` of lane `l`. -/
structure VecRow where
  types : Bool
  d : BitVec 7
  srcs : List (BitVec 7)
  el : Nat → Nat → Nat

/-- The exact integer result of an element stored (R212): its low bits with SAT = 0, the nearer bound with SAT = 1. -/
def storedInt (g : Group) (x : Int) : Nat :=
  let w := typeW g.type
  let lo : Int := if typeSigned g.type then -2 ^ (w - 1) else 0
  let hi : Int := if typeSigned g.type then 2 ^ (w - 1) - 1 else 2 ^ w - 1
  ((if g.sat then max lo (min x hi) else x) % 2 ^ w).toNat

/-- The tables of R304, R307, R308, R311, R312 and R313: instructions that combine elements of MODE.TYPE. -/
def vecRow (g : Group) (i : Instr) : Option VecRow :=
  let w := typeW g.type
  let f := g.typeFmt g.type
  let r := (g.rounding 0).plain
  let int := fun (d a b : BitVec 7) (h : Int → Int → Int) =>
    some { types := typeInt g.type, d := d, srcs := [a, b], el := fun l j => storedInt g (h (g.eli a l j) (g.eli b l j)) : VecRow }
  let bits := fun (d a b : BitVec 7) (h : Nat → Nat → Nat) =>
    some { types := typeInt g.type, d := d, srcs := [a, b], el := fun l j => h (g.el a l j) (g.el b l j) : VecRow }
  let flt := fun (d a b : BitVec 7) (h : Val → Val → Val) =>
    some { types := typeFloat g.type, d := d, srcs := [a, b], el := fun l j => (f.encode r false (h (g.elv a l j) (g.elv b l j))).code : VecRow }
  match i with
  | .vadd d a b _ _ => int d a b fun x y => x + y
  | .vsub d a b _ _ => int d a b fun x y => x - y
  | .vmul d a b _ _ => int d a b fun x y => x * y
  | .vmulh d a b _ _ =>
    some { types := typeInt g.type, d := d, srcs := [a, b], el := fun l j => (g.eli a l j * g.eli b l j / 2 ^ w % 2 ^ w).toNat }
  | .vmad d a b _ _ _ =>
    some { types := typeInt g.type, d := d, srcs := [a, b, d], el := fun l j => storedInt g (g.eli a l j * g.eli b l j + g.eli d l j) }
  | .vmin d a b _ _ => int d a b fun x y => min x y
  | .vmax d a b _ _ => int d a b fun x y => max x y
  | .vabsd d a b _ _ => int d a b fun x y => |x - y|
  | .vshl d a b _ _ => bits d a b fun x k => if k < w then x * 2 ^ k else 0
  | .vshr d a b _ _ => bits d a b fun x k => if k < w then x / 2 ^ k else 0
  | .vsra d a b _ _ => bits d a b fun x k => (sextN x w / 2 ^ min k (w - 1) % 2 ^ w).toNat
  | .vpopc d a _ => some { types := typeInt g.type, d := d, srcs := [a], el := fun l j => popcount w (g.el a l j) }
  | .vclz d a _ => some { types := typeInt g.type, d := d, srcs := [a], el := fun l j => clz w (g.el a l j) }
  | .vbfe d a b _ _ =>
    some { types := decide (g.type < 2), d := d, srcs := [a, b], el := fun l _ =>
      let c := min (g.opv b l / 2 ^ 8 % 2 ^ 6) 32
      let fld := g.opv a l % 2 ^ 32 / 2 ^ (g.opv b l % 2 ^ 5) % 2 ^ c
      if g.type = 0 then (sextN fld c % 2 ^ 32).toNat else fld }
  | .vbfi d a b _ _ _ =>
    some { types := decide (g.type < 2), d := d, srcs := [a, b, d], el := fun l _ =>
      let o := g.opv b l % 2 ^ 5
      let e := min (o + min (g.opv b l / 2 ^ 8 % 2 ^ 6) 32) 32
      g.opv d l / 2 ^ e * 2 ^ e + g.opv a l % 2 ^ (e - o) * 2 ^ o + g.opv d l % 2 ^ o }
  | .vlaneid d => some { types := decide (g.type < 2), d := d, srcs := [], el := fun l _ => l }
  | .fadd d a b _ _ => flt d a b fun x y => Val.add r.rnd x y
  | .fsub d a b _ _ => flt d a b fun x y => subVal r.rnd x y
  | .fmul d a b _ _ => flt d a b fun x y => x.mul y
  | .ffma d a b _ _ _ =>
    some { types := typeFloat g.type, d := d, srcs := [a, b, d], el := fun l j =>
      (f.encode r false (fmaVal r.rnd (g.elv a l j) (g.elv b l j) (g.elv d l j))).code }
  | .fmin d a b _ _ =>
    some { types := typeFloat g.type, d := d, srcs := [a, b], el := fun l j => fminmaxCode f (g.rounding 0).plain true (g.el a l j) (g.el b l j) }
  | .fmax d a b _ _ =>
    some { types := typeFloat g.type, d := d, srcs := [a, b], el := fun l j => fminmaxCode f (g.rounding 0).plain false (g.el a l j) (g.el b l j) }
  | .fabs d a _ => some { types := typeFloat g.type, d := d, srcs := [a], el := fun l j => g.el a l j % 2 ^ (w - 1) }
  | .fneg d a _ => some { types := typeFloat g.type, d := d, srcs := [a], el := fun l j => g.el a l j ^^^ 2 ^ (w - 1) }
  | .frnd d a m _ =>
    some { types := typeFloat g.type, d := d, srcs := [a], el := fun l j => frndCode f (frndMode m g) (g.el a l j) }
  | _ => none

/-- A row of the moves: destination, sources of MODE.TYPE, sources that are one register, and the lane's value. -/
structure MoveRow where
  d : BitVec 7
  srcs : List (BitVec 7)
  idx : List (BitVec 7) := []
  lane : Nat → Nat

/-- The tables of R305, R323 and R324: instructions that copy or combine the bits of lanes. -/
def moveRow (g : Group) : Instr → Option MoveRow
  | .vand d a b _ _ => some { d := d, srcs := [a, b], lane := fun l => g.opv a l &&& g.opv b l }
  | .vor d a b _ _ => some { d := d, srcs := [a, b], lane := fun l => g.opv a l ||| g.opv b l }
  | .vxor d a b _ _ => some { d := d, srcs := [a, b], lane := fun l => g.opv a l ^^^ g.opv b l }
  | .vandn d a b _ _ => some { d := d, srcs := [a, b], lane := fun l => g.opv a l - (g.opv a l &&& g.opv b l) }
  | .vsel d a b _ _ => some { d := d, srcs := [a, b], lane := fun l => if laneBit g.cmask l then g.opv a l else g.opv b l }
  | .vmov d a _ => some { d := d, srcs := [a], lane := fun l => g.opv a l }
  | .vshfl d a b _ _ => some { d := d, srcs := [a], idx := [b], lane := fun l => g.opv a ((g.vsrc b.toNat l).toNat % 32) }
  | .vshfli d a m n _ => some { d := d, srcs := [a], lane := fun l => g.opv a (shflLane m.toNat n.toNat l) }
  | .vbcast d a b _ _ => some { d := d, srcs := [a], idx := [b], lane := fun _ => g.opv a ((g.vsrc b.toNat 0).toNat % 32) }
  | _ => none

/-- The conditions of R309: whether TYPE is accepted, the sources, and the condition of element `j` of lane `l`. -/
def compareRow (g : Group) (i : Instr) : Option (Bool × BitVec 7 × BitVec 7 × (Nat → Nat → Bool)) :=
  let int := fun (a b : BitVec 7) (c : Int → Int → Bool) => some (typeInt g.type, a, b, fun l j => c (g.eli a l j) (g.eli b l j))
  let flt := fun (a b : BitVec 7) (c : Option Ordering → Bool) =>
    some (typeFloat g.type, a, b, fun l j => c (Val.cmp (g.elv a l j) (g.elv b l j)))
  match i with
  | .vcmpeq a b _ _ => int a b fun x y => decide (x = y)
  | .vcmpne a b _ _ => int a b fun x y => decide (x ≠ y)
  | .vcmplt a b _ _ => int a b fun x y => decide (x < y)
  | .vcmple a b _ _ => int a b fun x y => decide (x ≤ y)
  | .fcmpeq a b _ _ => flt a b fun o => decide (o = some .eq)
  | .fcmplt a b _ _ => flt a b fun o => decide (o = some .lt)
  | .fcmple a b _ _ => flt a b fun o => decide (o = some .lt ∨ o = some .eq)
  | .fcmpun a b _ _ => flt a b fun o => decide (o = none)
  | _ => none

/-- The registers of a destination of MODE.TYPE. -/
def Group.pairOf (g : Group) (d : BitVec 7) : List Nat := if is64 g.type then [d.toNat, d.toNat + 1] else [d.toNat]

/-- A row of the instructions that write lanes of other shapes: the condition on the form and the format, the destination
and whether it is a pair, the words of the instruction, the source operands with their register counts, the tags that are
checked, the lanes written, the lane's value and the tag. -/
structure LaneRow where
  ok : Bool := true
  d : BitVec 7
  wide : Bool := false
  words : Nat := 1
  srcs : List (BitVec 7 × Nat) := []
  tags : List (BitVec 7 × Nat × (BitVec 5 → Bool)) := []
  mask : Word
  lane : Nat → Nat
  tag : BitVec 5

/-- The tables of R306, R315 to R318 and R324 (`vmovv`). -/
def laneRow (g : Group) : Instr → Option LaneRow
  | .vli d lit => some { ok := !is64 g.type && !(g.type == 12 && (narrowFmt (g.fmt g.dfmt)).sblk), d := d, words := 2, mask := g.active, lane := fun _ => lit.toNat, tag := g.typeTag }
  | .vmovv d a b _ _ =>
    let n := (g.vsrc b.toNat 0).toNat % 32
    some { ok := !(g.type == 12 && (narrowFmt (g.fmt g.dfmt)).sblk), d := d, wide := is64 g.type
           srcs := [(a, if is64 g.type then 2 else 1), (b, 1)], mask := g.active &&& BitVec.ofNat 32 (2 ^ n)
           lane := fun _ => g.opv a 0, tag := g.typeTag }
  | .vdot4 d a b _ _ _ =>
    let sg := decide (g.type = 0)
    let el := fun (c : BitVec 7) (l j : Nat) =>
      if sg then sextN (elemOf 8 (g.opv c l) j) 8 else (elemOf 8 (g.opv c l) j : Int)
    let sum := fun (l : Nat) => el a l 0 * el b l 0 + el a l 1 * el b l 1 + el a l 2 * el b l 2 + el a l 3 * el b l 3
    some { ok := decide (g.type < 2) || (decide (g.type = 8) && narrowUsable g g.dfmt), d := d, srcs := [(a, 1), (b, 1), (d, 1)]
           tags := [(a, 1, dotTag g), (b, 1, dotTag g), (d, 1, acceptsTag g.dfmt g.type)], mask := g.active
           lane := fun l => if g.type = 8 then dotF32 g (g.opv a l) (g.opv b l) (g.opv d l)
             else storedInt g ((if sg then sextN (g.opv d l) 32 else (g.opv d l : Int)) + sum l)
           tag := g.typeTag }
  | .cvt d a k t _ ed =>
    some { ok := cvtLegal g.type t.toNat k.toNat ed, d := d, wide := is64 t.toNat
           srcs := (a, if is64 g.type then 2 else 1) :: (if typeN g.type = 1 ∧ 1 < typeN t.toNat then [(d, 1)] else [])
           tags := [(a, if is64 g.type then 2 else 1, acceptsTag g.dfmt g.type)], mask := g.active
           lane := cvtLane g t.toNat k.toNat a d, tag := tagOf g.dfmt t.toNat }
  | .cvtn d a k j _ _ =>
    some { ok := (decide (g.type < 2) || decide (g.type = 8)) && narrowUsable g j.toNat, d := d, srcs := [(a, 1), (d, 1)]
           tags := [(a, 1, acceptsTag g.dfmt g.type)], mask := g.active
           lane := fun l =>
             let c := (convertCode (g.typeFmt g.type) (narrowFmt (g.fmt j.toNat)) (g.rounding ((4 * l + k.toNat) % 32)) (g.vsrc a.toNat l).toNat).code
             let x := (g.vsrc d.toNat l).toNat
             x - x / 2 ^ (8 * k.toNat) % 2 ^ 8 * 2 ^ (8 * k.toNat) + c % 2 ^ 8 * 2 ^ (8 * k.toNat)
           tag := BitVec.ofNat 5 (16 + j.toNat) }
  | .cvtw d a k j _ =>
    some { ok := (decide (g.type < 2) || decide (g.type = 8)) && narrowUsable g j.toNat, d := d, srcs := [(a, 1)]
           tags := [(a, 1, fun t => t == BitVec.ofNat 5 (16 + j.toNat))], mask := g.active
           lane := fun l => (convertCode (narrowFmt (g.fmt j.toNat)) (g.typeFmt g.type) (g.rounding l).plain
             ((g.vsrc a.toNat l).toNat / 2 ^ (8 * k.toNat) % 2 ^ 8)).code
           tag := g.typeTag }
  | _ => none

/-- A lane of a register or a pair of V space. -/
def Group.laneOf (g : Group) (wide : Bool) (c : BitVec 7) (l : Nat) : Nat :=
  if wide then (g.vpair c.toNat l).toNat else (g.vsrc c.toNat l).toNat

/-- The scalar registers that an instruction fills at once, with what it puts there, from a first register on (R132, R134,
R289, R296, R367). -/
def readRow (s : State) : Instr → Option (BitVec 7 × List Word)
  | .mrdexec d => some (d, [s.g.exec])
  | .mrdcm d => some (d, [s.g.cmask])
  | .getmode d => some (d, [s.g.mode])
  | .getfmt d k => some (d, [s.g.fmt k.toNat])
  | .mcount d => some (d, [BitVec.ofNat 32 (s.g.count 0 + 2 ^ 8 * s.g.count 1 + 2 ^ 16 * s.g.count 2 + 2 ^ 24 * s.g.count 3),
      BitVec.ofNat 32 (s.g.count 4 + 2 ^ 8 * s.g.count 5)])
  | .rwstat d k _ => some (d, [s.cx.statistic k.toNat])
  | _ => none

/-- A delivery is in flight: its destination is empty, and its data stand with it (R139); one that counts on LD does
(R152). -/
structure Delivers (s t : State) (r : Ret) : Prop where
  flight : ∃ k, { r with id := k } ∈ t.g.rets
  empty : ∀ n, r.d ≤ n → n < r.d + r.n → (if r.scalar then t.g.isEmptyS n else t.g.isEmptyV n) = true
  counted : t.g.count 0 = s.g.count 0 + if r.counted then 1 else 0

/-- What trap entry saves, sets and leaves (R380): `r` is the code with its detail, `saved` the saved PC. -/
structure Entered (s t : State) (r : Raise) (saved : DWord) : Prop where
  tep : t.g.tr.tep = saved
  tsexec : t.g.tr.tsexec = s.g.exec
  tscm : t.g.tr.tscm = s.g.cmask
  tsmode : t.g.tr.tsmode = s.g.mode
  sscc : t.g.tr.sscc = s.g.scc
  sin : t.g.tr.sin = s.g.tr.inH
  smask : t.g.tr.smask = s.g.tr.tmask
  inH : t.g.tr.inH = true
  tmask : t.g.tr.tmask = true
  tcause : t.g.tr.tcause = 0#4 ++ r.info ++ r.opnd ++ BitVec.ofNat 8 r.code.num
  exec : t.g.exec = 0xFFFFFFFF
  mode : t.g.mode = 0x1020
  pc : t.g.pc = s.g.tr.thand.extractLsb' 2 62 ++ 0#2
  cmask : t.g.cmask = s.g.cmask
  scc : t.g.scc = s.g.scc
  thand : t.g.tr.thand = s.g.tr.thand
  lower : t.cx.halt = s.cx.halt ∧ t.cx.faults = s.cx.faults

/-- A fault: the group is stopped at `at_`, and its code waits for the halt of the partition, whose line is raised (R382). -/
structure Faulted (s t : State) (r : Raise) (at_ : DWord) : Prop where
  pc : t.g.pc = at_
  stopped : t.g.st = .stopped
  waits : t.cx.faults = s.cx.faults ++ [{ g := s.g.key, raise := r, pc := at_ }]
  line : t.cx.halt ≠ .lowered
  /-- no handler sees it -/
  kept : t.g.tr = s.g.tr

/-- A raise whose code may be a trap now: a trap code, an enabled handler, and traps not masked (R376). -/
def Raise.taken (s : State) (r : Raise) : Prop :=
  r.code.isTrap = true ∧ s.g.tr.thand.getLsbD 0 = true ∧ s.g.tr.tmask = false

/-! ### Memory -/

/-- An address of the group passes every check of an access and is served in this package's memory at `pa`, through the
translation `e` (R13, R149). -/
def State.reaches (s : State) (kind : AccKind) (size : Nat) (va : DWord) (pa : Nat) (e : TlbEntry) : Prop :=
  s.placeOne kind size 4 va true = .ok (.loc pa e)

/-- A store of the group as it stands in its grove's slice. -/
def PendStore.ofGroup (s : State) (p : PendStore) : Prop := p.g = s.g.key ∧ p.grove = groveOf s.g.core ∧ p.ctx = s.g.ctx

/-- The store of `[pa, pa + n)` may be performed at once: its page is never cached, or its words are granted to the grove and no
earlier store of the grove to these bytes waits (R29, R84). -/
def State.performsNow (s : State) (pa n : Nat) (e : TlbEntry) : Prop :=
  e.home = 3 ∨
    (∀ i, i < 32 → pa % 128 / 4 ≤ i → i < (pa % 128 + n + 3) / 4 → ((s.grove (groveOf s.g.core)).word (lineOf pa) i).granted = true) ∧
      ∀ p ∈ s.pend, p.grove = groveOf s.g.core → pa + n ≤ p.pa ∨ p.pa + p.bytes.length ≤ pa

/-- Earlier accesses of the group have been performed at a scope: loads have their data, and from `.die` outwards no store waits
for a grant (R156, R163). -/
def State.released (s : State) (scope : BitVec 3) : Prop :=
  s.g.count 0 = 0 ∧ (2 ≤ scope.toNat → s.g.count 1 = 0 ∧ s.storesWait = false)

/-- No atomic of the group waits at a home grove. -/
def State.noAtoms (s : State) : Prop := ∀ p ∈ s.groves, ∀ q ∈ p.2.svcq, q.g ≠ s.g.key

/-- The lanes an instruction acts on. -/
def Group.acts (g : Group) (l : Nat) : Prop := l < 32 ∧ laneBit g.active l = true

/-- A vector load: its size, destination, base and offset (R154, R156). -/
def loadRow : Instr → Option (Nat × BitVec 7 × BitVec 7 × BitVec 6)
  | .ldB d b o _ => some (1, d, b, o)
  | .ldH d b o _ => some (2, d, b, o)
  | .ldW d b o _ => some (4, d, b, o)
  | .ldD d b o _ => some (8, d, b, o)
  | .ldQ d b o _ => some (16, d, b, o)
  | .ldAcqW d b o _ _ => some (4, d, b, o)
  | .ldAcqD d b o _ _ => some (8, d, b, o)
  | _ => none

/-- A vector store, with the scope at which it releases (R154, R156). -/
def storeRow : Instr → Option (Nat × BitVec 7 × BitVec 7 × BitVec 6 × Option (BitVec 3))
  | .stB d b o _ => some (1, d, b, o, none)
  | .stH d b o _ => some (2, d, b, o, none)
  | .stW d b o _ => some (4, d, b, o, none)
  | .stD d b o _ => some (8, d, b, o, none)
  | .stQ d b o _ => some (16, d, b, o, none)
  | .stRelW d b o sc _ => some (4, d, b, o, some sc)
  | .stRelD d b o sc _ => some (8, d, b, o, some sc)
  | _ => none

/-- A scratchpad access: whether it stores, its size, register, base and offset (R158). -/
def spadRow : Instr → Option (Bool × Nat × BitVec 7 × BitVec 7 × BitVec 6)
  | .ldsW d b o _ => some (false, 4, d, b, o)
  | .ldsD d b o _ => some (false, 8, d, b, o)
  | .ldsQ d b o _ => some (false, 16, d, b, o)
  | .stsW d b o _ => some (true, 4, d, b, o)
  | .stsD d b o _ => some (true, 8, d, b, o)
  | .stsQ d b o _ => some (true, 16, d, b, o)
  | _ => none

/-- A scalar access: whether it stores, how many registers, register, base and offset (R157). -/
def scalarMemRow : Instr → Option (Bool × Nat × BitVec 7 × BitVec 7 × BitVec 6)
  | .sld d b o _ => some (false, 1, d, b, o)
  | .sldD d b o _ => some (false, 2, d, b, o)
  | .sst d b o _ => some (true, 1, d, b, o)
  | .sstD d b o _ => some (true, 2, d, b, o)
  | _ => none

/-- An atomic on memory: its operation, its destination (none for `red`), address and data registers, scope (R159, R162). -/
def atomRow : Instr → Option (Nat × Option (BitVec 7) × BitVec 7 × BitVec 7 × BitVec 3)
  | .atomAdd d a b sc => some (0, some d, a, b, sc)
  | .atomMin d a b sc => some (1, some d, a, b, sc)
  | .atomMax d a b sc => some (2, some d, a, b, sc)
  | .atomAnd d a b sc => some (3, some d, a, b, sc)
  | .atomOr d a b sc => some (4, some d, a, b, sc)
  | .atomXor d a b sc => some (5, some d, a, b, sc)
  | .atomXchg d a b sc => some (6, some d, a, b, sc)
  | .atomCas d a b sc => some (7, some d, a, b, sc)
  | .red d a b sc => if d.toNat ≤ 5 then some (d.toNat, none, a, b, sc) else none
  | _ => none

/-- The leaf that the walk of an address ends at, which the walker may stamp with GEN (R25). -/
def State.stampOf (s : State) (va : DWord) : List (Nat × Nat) :=
  match s.ctx? s.cx.num with
  | none => []
  | some c =>
    match walkTable (s.walkRead (dieOf s.g.core) c) c va.toNat with
    | .leaf ea _ _ => [(ea, 8)]
    | _ => []

/-- The leaves that cache control may stamp with GEN, page after page (R25, R165). -/
def State.stamps (s : State) : List DWord → List (Nat × Nat)
  | [] => []
  | va :: t => s.stampOf va ++ State.stamps (s.walkNow va).1 t

/-- An atomic on the window: its operation, destination, address and data registers (R161). -/
def spadAtomRow : Instr → Option (Nat × BitVec 7 × BitVec 7 × BitVec 7)
  | .atomsAdd d a b => some (0, d, a, b)
  | .atomsMin d a b => some (1, d, a, b)
  | .atomsMax d a b => some (2, d, a, b)
  | .atomsOr d a b => some (4, d, a, b)
  | .atomsXchg d a b => some (6, d, a, b)
  | .atomsCas d a b => some (7, d, a, b)
  | _ => none

/-- Registers of the data operand of an atomic (R159). -/
def Group.atomRegs (g : Group) (op : Nat) : Nat := (if is64 g.type then 2 else 1) * (if op = 7 then 2 else 1)

/-- The tags of some registers are accepted where they are checked. -/
def Group.taggedN (g : Group) (c : BitVec 7) (n : Nat) : Prop :=
  g.fmtTrap = true → c.toNat < 96 → ∀ k, k < n → acceptsTag g.dfmt g.type (g.tag (c.toNat + k)) = true

/-- A page instruction: destination, address pair, operand, registers of the operand, and what it comes to (R169 to R172). -/
def pageRow (s : State) : Instr → Option (BitVec 7 × BitVec 7 × BitVec 7 × Nat × PageRes)
  | .pgmap d a b => some (d, a, b, 1, s.pgmapRes (s.g.spair a.toNat).toNat (s.g.sreg b.toNat))
  | .pgshare d a b => some (d, a, b, 2, s.pgshareRes (s.g.spair a.toNat).toNat (s.g.spair b.toNat))
  | .pgrel d a b => some (d, a, b, 1, s.pgrelRes (s.g.spair a.toNat).toNat (s.g.sreg b.toNat))
  | _ => none

/-- Two byte ranges do not meet. -/
def apart (a n b m : Nat) : Prop := a + n ≤ b ∨ b + m ≤ a

/-! ### Barriers, engines, tiles and arrays -/

/-- An object of `n` bytes stands at a window offset, its words without an uncorrectable error (R58, R174, R177, R193). -/
def State.objAt (s : State) (off : Word) (n : Nat) : Prop :=
  off.toNat % n = 0 ∧ off.toNat + n ≤ s.tm.w ∧ s.tm.eccBad off.toNat n = false

/-- Every lane is active: a tile instruction may issue (R244). -/
def Group.converged (g : Group) : Prop := g.active = 0xFFFFFFFF

/-- A handle is defined, and its format register set where its tag names one (R134, R326). -/
def State.tileUsable (s : State) (n : Nat) : Prop :=
  (s.handle n).tag ≠ 0 ∧ (isNf4 (s.handle n).tag = true → unsetFmt (s.g.tileReg (s.handle n).tag) = false)

/-- The group owns a bank of an array, and the bank is no other's partner (R336). -/
def State.owns (s : State) (gr n : Nat) : Prop := (s.bank gr n).owner = some s.g.key ∧ (s.bank gr n).heldFor = none

/-- The groves of an instruction that may be chained, from west to east; a chain stays in its row and in the partition (R344). -/
def State.chainOk (s : State) (chain : Bool) : Prop :=
  chain = true → s.myGrove % 8 + s.chainLen chain - 1 ≤ 7 ∧ ∀ a ∈ rangeFrom s.myGrove (s.chainLen chain), s.cx.inPart a = true

/-- A tile operation has joined those in flight, and counts on MMA (R190, R349). -/
def TileStarted (s t : State) (kind : TileKind) (pieces sideAt : List Piece) : Prop :=
  ∃ x : TileOp, t.tops = s.tops ++ [x] ∧ x.kind = kind ∧ x.g = s.g.key ∧ x.team = s.g.team ∧ x.ctx = s.g.ctx ∧
    x.core = s.g.core ∧ x.pc = s.g.pc ∧ x.mode = s.g.mode ∧ x.pieces = pieces ∧ x.sideAt = sideAt ∧
    t.g.count 3 = s.g.count 3 + 1

/-- An array step has joined the queue of an arbiter, and counts on MMA (R190, R347). -/
def StepQueued (s t : State) (gr len bank : Nat) (kind : StepKind) : Prop :=
  ∃ x : ArrayStep, (t.array gr).queue = (s.array gr).queue ++ [x] ∧ x.kind = kind ∧ x.bank = bank ∧ x.chainLen = len ∧
    x.g = s.g.key ∧ x.team = s.g.team ∧ x.ctx = s.g.ctx ∧ x.pos = s.g.core % 4 ∧ x.pc = s.g.pc ∧ x.mode = s.g.mode ∧
    t.g.count 3 = s.g.count 3 + 1

/-- Tile instructions that need no grant: source operands with their counts, the handles they use, a further condition,
and the operation with its rows (R328, R332, R334, R335, R341). -/
def tileRow (s : State) : Instr → Option (List (BitVec 7 × Nat) × List Nat × Bool × TileKind)
  | .tdefMeas n => some ([], [n.toNat], true, .meas (s.handle n.toNat) n.toNat (s.g.tileReg (s.handle n.toNat).tag))
  | .tcvt hA hB =>
    let d := s.handle hA.toNat
    let h := s.handle hB.toNat
    some ([], [hA.toNat, hB.toNat], d.sameShape h,
      .cvt d h hA.toNat hB.toNat (s.g.tileReg d.tag) (s.g.tileReg h.tag))
  | .tscl d a sn _ =>
    let x := s.handle d.toNat
    let y := s.handle sn.toNat
    some ([(a, 1)], [d.toNat, sn.toNat], floatTile x.tag && floatTile y.tag && x.sameShape y,
      .scl x y d.toNat sn.toNat (s.g.tileReg x.tag) (s.g.tileReg y.tag) (s.g.sreg a.toNat))
  | .ldw hB =>
    let h := s.handle hB.toNat
    let f := s.g.tileReg h.tag
    some ([], [hB.toNat],
      match planeClass h.tag f with
      | none => false
      | some c => !(h.sblk && !h.trans) && decide (h.lrows ≤ c.maxK) && decide (h.lcols ≤ 64),
      .ldw h hB.toNat f)
  | _ => none

/-- Words that a group reads from a handle or a bank through a delivery: destination, and the word (R238, R331). -/
def handleWord (s : State) : Instr → Option (BitVec 7 × Nat × Word)
  | .tinfo d w n => some (d, n.toNat, (s.handle n.toNat).word w.toNat)
  | _ => none

/-- As `handleWord`, a bank of the group's own array. -/
def bankWord (s : State) : Instr → Option (BitVec 7 × Nat × Word)
  | .bndrd d n => some (d, n.toNat, (s.myBank n.toNat).bnd)
  | .bndrdStat d n => some (d, n.toNat, (s.myBank n.toNat).status)
  | .mlogStat d n =>
    some (d, n.toNat, BitVec.ofNat 32 ((s.myBank n.toNat).logcnt * 16 + s.refusal s.myGrove n.toNat s.g.mode))
  | _ => none

/-- What an instruction of R238 leaves of the group's own bank. -/
def bankWrite (s : State) : Instr → Option (List (BitVec 7) × Nat × Bank)
  | .bndwr a n _ =>
    let b := s.myBank n.toNat
    some ([a], n.toNat, { b with bnd := maxBound b.bnd (boundOfReg (s.g.sreg a.toNat)) })
  | .bndwrInv n => some ([], n.toNat, { s.myBank n.toNat with bnd := 0x7F800000, isSealed := true })
  | .mlogSeal n => some ([], n.toNat, { s.myBank n.toNat with isSealed := true })
  | _ => none

/-- What an instruction of R238 leaves of a handle's bound. -/
def boundWrite (s : State) : Instr → Option (BitVec 7 × Nat × Word)
  | .hbndRaise a n _ => some (a, n.toNat, maxBound (s.handle n.toNat).hb (boundOfReg (s.g.sreg a.toNat)))
  | .hbndSet a n _ => some (a, n.toNat, boundOfReg (s.g.sreg a.toNat))
  | _ => none

/-- Engine instructions: class, operand, and the offsets of the requests (R184, R186, R187). -/
def engineRow (g : Group) : Instr → Option (Nat × BitVec 7 × List Nat)
  | .kick p n => some (0, p, (List.range (n.toNat + 1)).map fun i => (g.sreg p.toNat).toNat + 32 * i)
  | .gth a _ => some (1, a, [(g.sreg a.toNat).toNat])
  | .cpyred a _ => some (2, a, [(g.sreg a.toNat).toNat])
  | _ => none

/-- Ring instructions that move one slot (R196). -/
def ringRow (r : Ring) : Instr → Option (BitVec 7 × Bool × Ring)
  | .rput a _ => some (a, r.kind && r.active && r.free != 0, { r with put := (r.put + 1) % r.nslot, free := r.free - 1 })
  | .rrel a _ => some (a, !r.kind && decide (r.free < r.nslot), { r with take := (r.take + 1) % r.nslot, free := r.free + 1 })
  | _ => none

/-! ### Steps with no encoding -/

/-- A step goes on to a next state that holds `P`. -/
def Gives (i : Instr) (s : State) (P : State → Prop) : Prop := ∃ t, exec i s = .next t ∧ P t

/-- No two groups share a key. -/
def State.keysApart (s : State) : Prop := (s.groups.map (·.key)).Nodup

/-- A group stands: it issues nothing until it is released (R245). -/
def Group.stands (g : Group) : Prop := g.st = .stopped ∨ g.st = .frozen ∨ g.st = .ended

/-- No group watches memory: what the device writes ends no monitor. -/
def State.unwatched (s : State) : Prop := ∀ g ∈ s.groups, g.mon = none

/-- The team and the context of the focused group are in focus with it. -/
def State.focused (s : State) : Prop :=
  s.g.live = true ∧ s.tm.live = true ∧ s.tm.key = s.g.team ∧ s.cx.live = true ∧ s.cx.num = s.g.ctx

/-- A command at the head of the queue, well formed for the arguments its kind uses (R429, R430). -/
def State.asks (s : State) (e : SqEntry) (kind used : Nat) : Prop :=
  s.sqHead = some e ∧ e.kind = kind ∧ e.wellFormed used = true

/-- A DEBUG command of one code, whose unassigned bits are 0 (R419). -/
def State.debugs (s : State) (e : SqEntry) (code : Nat) (m : List Nat) (c : Ctx) : Prop :=
  s.asks e 4 4 ∧ e.arg 0 % 256 = code ∧ s.ctx? e.ctx = some c ∧
    ∀ p ∈ [e.arg 0 / 256, e.arg 1, e.arg 2, e.arg 3].zip m, p.1 &&& p.2 = p.1

/-- The command has been taken: SQHEAD has passed it, and its one ACCEPTED or REFUSED entry has been written (R433). -/
def Taken (s t : State) : Prop := t.dev.sqhead = s.dev.sqhead + 1 ∧ s.dev.jseq < t.dev.jseq

/-- Commands on contexts with their kind and the arguments they use (R430). -/
def commandRow : Instr → Option (Nat × Nat)
  | .preempt => some (2, 2)
  | .restore => some (3, 0)
  | .grant => some (5, 2)
  | .reclaim => some (6, 2)
  | .teardown => some (8, 0)
  | _ => none

/-- A frame is none of the frame descriptor table, and its bytes are apart from the journal. -/
def State.ordinary (s : State) (f : Nat) : Prop :=
  apart (f * 65536) 65536 Config.fdtBase Config.fdtBytes ∧ apart (f * 65536) 65536 s.dev.jbase.toNat 0x400000

/-- The journal lies apart from the frame descriptor table, as the firmware reserves it (R433). -/
def State.journalApart (s : State) : Prop := apart s.dev.jbase.toNat 0x400000 Config.fdtBase Config.fdtBytes

/-- No group that has left READY and ISSUING through FROZEN, STOPPED or ENDED holds another back after a yield (R263). -/
def State.heldLive (s : State) : Prop := ∀ g ∈ s.groups, ∀ k ∈ g.held, ∃ h, s.group? k = some h ∧ ¬ h.stands

end Sys2Proof.Machine
end

