-- ==== Sys2Proof/Certificates/Slice0/Obligations.lean ====
section
/-! DEFINITION. The statements for the provers. -/

section
open Sys2Proof Sys2Proof.Machine

/-- Every scalar result instruction of R282 to R286 completes when its registers are allocated and full, gives the result
and the SCC of its table, and writes nothing else. -/
def Obligations.ScalarResults : Prop :=
  ∀ (s : State) (i : Instr) (r : ScalarRow), scalarRow s.g i = some r → (∀ c ∈ r.srcs, s.g.readyS c) → s.g.openS r.d →
    Completes i s (s.g.pc + BitVec.ofNat 64 (4 * r.words)) { sregs := [r.d.toNat], scc := r.scc.isSome } fun t =>
      t.g.sreg r.d.toNat = r.x ∧ (∀ b, r.scc = some b → t.g.scc = b)

/-- Each branch of R287 completes, wherever it leads: the PC becomes PC + 4 * sext(off24) when its condition on SCC, CMASK and EXEC
holds and PC + 4 otherwise; the watchdog count rises by 1 (R248), and no register, flag or byte changes. -/
def Obligations.BranchTakesItsTarget : Prop :=
  ∀ (s : State) (i : Instr) (c : Bool) (off : BitVec 24), branchRow s.g i = some (c, off) →
    Completes i s (if c then s.g.pc + BitVec.ofInt 64 (4 * off.toInt) else s.g.pc + 4) {} fun _ => True

/-- The element-wise integer and float instructions of R304, R307, R308, R311, R312 and R313 complete where they accept TYPE and
their registers are ready: every element of every active lane of v[d] (a pair for a 64-bit TYPE) gets the result of its table,
every inactive lane keeps its value, the tag becomes that of TYPE when a lane is active, and no other register, flag or byte
changes (R136, R243). -/
def Obligations.VectorElements : Prop :=
  ∀ (s : State) (i : Instr) (r : VecRow), vecRow s.g i = some r → r.types = true → r.d.toNat < 96 →
    (∀ c ∈ r.srcs, s.g.readyT c ∧ s.g.tagged c) → s.g.openT r.d →
    Completes i s (s.g.pc + 4) { vregs := s.g.pairOf r.d } fun t =>
      (∀ l, l < 32 → laneBit s.g.active l = true → ∀ j, j < typeN s.g.type →
        elemOf (typeW s.g.type) (t.g.opv r.d l) j = r.el l j % 2 ^ typeW s.g.type) ∧
      (∀ l, l < 32 → laneBit s.g.active l = false → t.g.opv r.d l = s.g.opv r.d l) ∧
      ∀ n ∈ s.g.pairOf r.d, t.g.tag n = if s.g.active = 0 then s.g.tag n else tagOf s.g.dfmt s.g.type

/-- `vand`, `vor`, `vxor`, `vandn`, `vsel`, `vmov`, `vshfl`, `vshfli` and `vbcast` complete under every TYPE but block-scaled codes
when their registers are ready: each active lane of the destination gets the value of its table, each inactive lane keeps its
value, and the tag follows the sources when a lane is active (R243, R305, R319, R323, R324). -/
def Obligations.VectorMoves : Prop :=
  ∀ (s : State) (i : Instr) (r : MoveRow), moveRow s.g i = some r → s.g.type ≤ 12 → s.g.codesPlain → r.d.toNat < 96 →
    (∀ c ∈ r.srcs, s.g.readyT c) → (∀ c ∈ r.idx, s.g.readyX c) → s.g.openT r.d →
    Completes i s (s.g.pc + 4) { vregs := s.g.pairOf r.d } fun t =>
      (∀ l, l < 32 → t.g.opv r.d l = if laneBit s.g.active l then r.lane l % 2 ^ (if is64 s.g.type then 64 else 32) else s.g.opv r.d l) ∧
      ∀ n ∈ s.g.pairOf r.d, t.g.tag n = if s.g.active = 0 then s.g.tag n else s.g.moveTag r.srcs

/-- A vector compare that accepts TYPE completes when its registers are ready: the CMASK bit of each active lane is 1 exactly when
the condition holds for every element of the lane, the other bits stay, and nothing else is written (R243, R309). -/
def Obligations.VectorCompares : Prop :=
  ∀ (s : State) (i : Instr) (ok : Bool) (a b : BitVec 7) (c : Nat → Nat → Bool), compareRow s.g i = some (ok, a, b, c) →
    ok = true → s.g.readyT a → s.g.readyT b → s.g.tagged a → s.g.tagged b →
    Completes i s (s.g.pc + 4) { cmask := true } fun t =>
      ∀ l, l < 32 → laneBit t.g.cmask l =
        if laneBit s.g.active l then (List.range (typeN s.g.type)).all (c l) else laneBit s.g.cmask l

/-- `vli`, `vmovv`, `vdot4`, `cvt`, `cvtn` and `cvtw` complete under the conditions on form, format and tags that their rules give:
each lane they act on gets the value of its table, the other lanes keep theirs, and the tag becomes that of the result when they
act on a lane (R306, R315 to R318, R324). -/
def Obligations.VectorLanes : Prop :=
  ∀ (s : State) (i : Instr) (r : LaneRow), laneRow s.g i = some r → r.ok = true → r.d.toNat < 96 →
    (∀ p ∈ r.srcs, s.g.readyP p.1 p.2) → s.g.openP r.d (if r.wide then 2 else 1) →
    (s.g.fmtTrap = true → ∀ p ∈ r.tags, p.1.toNat < 96 → ∀ k, k < p.2.1 → p.2.2 (s.g.tag (p.1.toNat + k)) = true) →
    Completes i s (s.g.pc + BitVec.ofNat 64 (4 * r.words)) { vregs := if r.wide then [r.d.toNat, r.d.toNat + 1] else [r.d.toNat] } fun t =>
      (∀ l, l < 32 → t.g.laneOf r.wide r.d l =
        if laneBit r.mask l then r.lane l % 2 ^ (if r.wide then 64 else 32) else s.g.laneOf r.wide r.d l) ∧
      ∀ n ∈ (if r.wide then [r.d.toNat, r.d.toNat + 1] else [r.d.toNat]), t.g.tag n = if r.mask = 0 then s.g.tag n else r.tag

/-- `vtag` sets the tag of its register, of both of a pair for a 64-bit tag, when a lane is active, and changes no lane. `vgettag`
writes the tag of its register, or that of TYPE for a broadcast scalar, to a scalar register, and `vmovs` the selected lane of its
source to a scalar or a pair, whatever EXEC holds (R320, R321, R324). -/
def Obligations.TagsAndScalars : Prop :=
  (∀ (s : State) (d : BitVec 7) (t : BitVec 5), d.toNat < 96 → s.g.openP d (if tag64 t then 2 else 1) →
    Completes (.vtag d t) s (s.g.pc + 4) { vregs := if tag64 t then [d.toNat, d.toNat + 1] else [d.toNat] } fun u =>
      ∀ n ∈ (if tag64 t then [d.toNat, d.toNat + 1] else [d.toNat]),
        (u.g.tag n = if s.g.active = 0 then s.g.tag n else t) ∧ ∀ l, l < 32 → u.g.lane n l = s.g.lane n l) ∧
  (∀ (s : State) (d a : BitVec 7) (ea : Bool), 96 ≤ d.toNat → s.g.readyX a → s.g.openX d →
    Completes (.vgettag d a ea) s (s.g.pc + 4) { sregs := [d.toNat - 96] } fun t =>
      t.g.sreg (d.toNat - 96) = (if a.toNat < 96 then s.g.tag a.toNat else tagOf s.g.dfmt s.g.type).zeroExtend 32) ∧
  (∀ (s : State) (d a b : BitVec 7) (ea eb : Bool), 96 ≤ d.toNat → s.g.codesPlain → s.g.readyT a → s.g.tagged a →
    s.g.readyX b → s.g.openT d →
    Completes (.vmovs d a b ea eb) s (s.g.pc + 4)
      { sregs := if is64 s.g.type then [d.toNat - 96, d.toNat - 95] else [d.toNat - 96] } fun t =>
      t.g.laneOf (is64 s.g.type) d 0 = s.g.opv a ((s.g.vsrc b.toNat 0).toNat % 32))

/-- `fclass` sets the CMASK bit of each active lane to whether the class of every element is in the lane's set. `vcmpr` sets it to
whether the lane is one of the two kept of its four, and writes the lane's value where it is and 0 where it is not. Inactive lanes
keep their values and bits (R310, R322). -/
def Obligations.ClassAndCompress : Prop :=
  (∀ (s : State) (a b : BitVec 7) (ea eb : Bool), typeFloat s.g.type = true → s.g.readyT a → s.g.tagged a → s.g.readyX b →
    Completes (.fclass a b ea eb) s (s.g.pc + 4) { cmask := true } fun t =>
      ∀ l, l < 32 → laneBit t.g.cmask l =
        if laneBit s.g.active l then
          (List.range (typeN s.g.type)).all fun j =>
            (s.g.vsrc b.toNat l).getLsbD (fclassBit (s.g.typeFmt s.g.type) (s.g.el a l j))
        else laneBit s.g.cmask l) ∧
  (∀ (s : State) (d a : BitVec 7) (ea : Bool), s.g.type = 0 ∨ s.g.type = 1 ∨ s.g.type = 8 → d.toNat < 96 → s.g.readyX a →
    s.g.tagged a → s.g.openX d →
    Completes (.vcmpr d a ea) s (s.g.pc + 4) { vregs := [d.toNat], cmask := true } fun t =>
      (∀ l, l < 32 → laneBit s.g.active l = true →
        laneBit t.g.cmask l = cmprKeeps s.g a l ∧ t.g.lane d.toNat l = if cmprKeeps s.g a l then s.g.vsrc a.toNat l else 0) ∧
      (∀ l, l < 32 → laneBit s.g.active l = false →
        laneBit t.g.cmask l = laneBit s.g.cmask l ∧ t.g.lane d.toNat l = s.g.lane d.toNat l) ∧
      t.g.tag d.toNat = if s.g.active = 0 then s.g.tag d.toNat else tagOf s.g.dfmt s.g.type)

/-- Results that arrive later: `fsfu`, `vscan` and `vred` complete, put their result in flight, mark their destination empty and
write no other register; `fsfu` and `vscan` with no active lane complete without an effect (R139, R314, R325). -/
def Obligations.LateResults : Prop :=
  (∀ (s : State) (d a : BitVec 7) (n : BitVec 3) (ea : Bool), s.g.type = 8 ∨ s.g.type = 10 ∨ s.g.type = 11 → d.toNat < 96 →
    s.g.readyT a → s.g.tagged a → s.g.openT d → s.g.active ≠ 0 →
    Completes (.fsfu d a n ea) s (s.g.pc + 4) { vregs := [d.toNat] } fun t =>
      Delivers s t (laneRet false d s.g.active (s.g.perElem fun l j => sfuElem s.g n.toNat (s.g.el a l j)) (tagOf s.g.dfmt s.g.type)) ∧
        ∀ l, t.g.lane d.toNat l = s.g.lane d.toNat l) ∧
  (∀ (s : State) (d a : BitVec 7) (p : BitVec 3) (ea : Bool), s.g.type ≤ 11 → p.toNat < 3 ∨ (p.toNat < 6 ∧ s.g.type < 8) →
    d.toNat < 96 → s.g.readyT a → s.g.tagged a → s.g.openT d → s.g.active ≠ 0 →
    Completes (.vscan d a p ea) s (s.g.pc + 4) { vregs := s.g.pairOf d } fun t =>
      (∃ f : Nat → Nat, Delivers s t (laneRet (is64 s.g.type) d s.g.active f (tagOf s.g.dfmt s.g.type)) ∧
        ∀ l j, l < 32 → j < typeN s.g.type →
          some (elemOf (typeW s.g.type) (f l) j) =
            ((scanLanes (redCombine s.g p.toNat) none (activeElems s.g a j))[l]?).map (· % 2 ^ typeW s.g.type)) ∧
        ∀ r l, t.g.lane r l = s.g.lane r l) ∧
  (∀ (s : State) (d a : BitVec 7) (n p : BitVec 3) (ea : Bool), d.toNat < 96 → s.g.readyT a → s.g.tagged a → s.g.openT d →
    s.g.active = 0 →
    (s.g.type = 8 ∨ s.g.type = 10 ∨ s.g.type = 11 →
      Completes (.fsfu d a n ea) s (s.g.pc + 4) {} fun t => t.g.rets = s.g.rets) ∧
    (s.g.type ≤ 11 → p.toNat < 3 ∨ (p.toNat < 6 ∧ s.g.type < 8) →
      Completes (.vscan d a p ea) s (s.g.pc + 4) {} fun t => t.g.rets = s.g.rets)) ∧
  (∀ (s : State) (d a : BitVec 7) (p : BitVec 3) (ea : Bool), s.g.type ≤ 11 → p.toNat < 3 ∨ (p.toNat < 6 ∧ s.g.type < 8) →
    96 ≤ d.toNat → s.g.readyT a → s.g.tagged a → s.g.openT d →
    Completes (.vred d a p ea) s (s.g.pc + 4)
      { sregs := if is64 s.g.type then [d.toNat - 96, d.toNat - 95] else [d.toNat - 96] } fun t =>
      (∃ x : Nat, Delivers s t (scalarRet (is64 s.g.type) (d.toNat - 96) x) ∧
        ∀ j, j < typeN s.g.type →
          elemOf (typeW s.g.type) x j = redTree (redCombine s.g p.toNat) (activeElems s.g a j) % 2 ^ typeW s.g.type) ∧
        ∀ n, t.g.sreg n = s.g.sreg n)

/-- An integer addition tree without saturation is the sum of the active lanes, whatever its order. -/
def Obligations.TreeSum : Prop :=
  ∀ (g : Group) (a : BitVec 7) (j : Nat), g.type < 8 → g.sat = false → j < typeN g.type →
    redTree (redCombine g 0) (activeElems g a j) =
      (((List.range 32).filter (laneBit g.active)).map fun l => g.el a l j).sum % 2 ^ typeW g.type

/-- `mrdexec`, `mrdcm`, `getmode`, `getfmt`, `mcount` and `rwstat` complete when their destination is open and write what they read
to it, `rwstat` two words; `rwstat` with its clear bit leaves the statistic 0 (R132, R134, R289, R296, R367). -/
def Obligations.ScalarReads : Prop :=
  (∀ (s : State) (i : Instr) (d : BitVec 7) (xs : List Word), readRow s i = some (d, xs) → s.g.openS d xs.length →
    Completes i s (s.g.pc + 4) { sregs := rangeFrom d.toNat xs.length } fun t =>
      ∀ k x, xs[k]? = some x → t.g.sreg (d.toNat + k) = x) ∧
  (∀ (s : State) (d k : BitVec 7), s.g.openS d → s.g.replay = [] →
    ∃ t, exec (.rwstat d k true) s = .next t ∧ t.cx.statistic k.toNat = 0)

/-- `call` writes the low word of PC + 4 to s63 and goes to its target; `jr` goes to the high word of the PC joined with s[a]
(R288); `nop` goes to PC + 4 (R129). Each completes and writes nothing else. -/
def Obligations.CallAndReturn : Prop :=
  (∀ (s : State) (off : BitVec 24), s.g.openS 63 →
    Completes (.call off) s (s.g.pc + BitVec.ofInt 64 (4 * off.toInt)) { sregs := [63] } fun t =>
      t.g.sreg 63 = (s.g.pc + 4).extractLsb' 0 32) ∧
  (∀ (s : State) (a : BitVec 7) (ea : Bool), s.g.readyS a →
    Completes (.jr a ea) s (BitVec.ofNat 64 (s.g.pc.toNat / 2 ^ 32 * 2 ^ 32 + (s.g.sreg a.toNat).toNat)) {} fun _ => True) ∧
  (∀ s : State, Completes .nop s (s.g.pc + 4) {} fun _ => True)

/-- `mexec`, `mrdexec`, `mrdcm`, `mwrcm`, `mand` and `melse` complete with the effect of their table on EXEC, CMASK, `%savedexec`
or a scalar register, and write nothing else (R289). With EXEC = 0 no lane is active and `%laneid` is 32 (R240, R243). -/
def Obligations.MaskInstructions : Prop :=
  (∀ (s : State) (a : BitVec 7) (ea : Bool), s.g.readyS a →
    Completes (.mexec a ea) s (s.g.pc + 4) { exec := true } fun t => t.g.exec = s.g.sreg a.toNat) ∧
  (∀ (s : State) (d : BitVec 7), s.g.openS d →
    Completes (.mrdexec d) s (s.g.pc + 4) { sregs := [d.toNat] } fun t => t.g.sreg d.toNat = s.g.exec) ∧
  (∀ (s : State) (d : BitVec 7), s.g.openS d →
    Completes (.mrdcm d) s (s.g.pc + 4) { sregs := [d.toNat] } fun t => t.g.sreg d.toNat = s.g.cmask) ∧
  (∀ (s : State) (a : BitVec 7) (ea : Bool), s.g.readyS a →
    Completes (.mwrcm a ea) s (s.g.pc + 4) { cmask := true } fun t => t.g.cmask = s.g.sreg a.toNat) ∧
  (∀ s : State, Completes .mand s (s.g.pc + 4) { exec := true, savedexec := true } fun t =>
    t.g.savedexec = s.g.exec ∧ t.g.exec = s.g.exec &&& s.g.cmask) ∧
  (∀ s : State, Completes .melse s (s.g.pc + 4) { exec := true } fun t => t.g.exec = s.g.savedexec &&& ~~~s.g.exec) ∧
  ∀ g : Group, g.exec = 0 → g.active = 0 ∧ laneidOf g.exec = 32

/-- `setmode`, `setmode.msk` and `setfmt` complete with a legal value, put it in MODE or f[k], and write nothing else; with any
other value they raise ILLEGAL_OP, a fault, and the register keeps its value. A MODE is legal exactly when its reserved bits are 0,
GUARD is not 3, RND is at most 4 and TYPE at most 12; a format register value is legal when it is 0 or meets the conditions on its
fields (R131 to R134). -/
def Obligations.ModeAndFormats : Prop :=
  (∀ (s : State) (a : BitVec 7) (ea : Bool), s.g.readyS a → modeLegal (s.g.sreg a.toNat) = true →
    Completes (.setmode a ea) s (s.g.pc + 4) { mode := true } fun t => t.g.mode = s.g.sreg a.toNat) ∧
  (∀ (s : State) (d a : BitVec 7) (ea ed : Bool) (new : Word),
    new = (s.g.mode &&& ~~~s.g.sreg d.toNat) ||| (s.g.sreg a.toNat &&& s.g.sreg d.toNat) →
    s.g.readyS a → s.g.readyS d → modeLegal new = true →
    Completes (.setmodeMsk d a ea ed) s (s.g.pc + 4) { mode := true } fun t => t.g.mode = new) ∧
  (∀ (s : State) (a : BitVec 7) (k : BitVec 4) (ea : Bool), s.g.readyS a → fmtLegal (s.g.sreg a.toNat) = true →
    Completes (.setfmt a k ea) s (s.g.pc + 4) { fmts := [k.toNat] } fun t => t.g.fmt k.toNat = s.g.sreg a.toNat) ∧
  (∀ (s : State) (d a : BitVec 7) (k : BitVec 4) (ea ed : Bool), s.g.rule = none → s.g.forced = false → s.g.readyS a →
    (modeLegal (s.g.sreg a.toNat) = false →
      ∃ t r, exec (.setmode a ea) s = .next t ∧ r.code = .illegalOp ∧ Faulted s t r s.g.pc ∧ t.g.mode = s.g.mode) ∧
    (s.g.readyS d → modeLegal ((s.g.mode &&& ~~~s.g.sreg d.toNat) ||| (s.g.sreg a.toNat &&& s.g.sreg d.toNat)) = false →
      ∃ t r, exec (.setmodeMsk d a ea ed) s = .next t ∧ r.code = .illegalOp ∧ Faulted s t r s.g.pc ∧ t.g.mode = s.g.mode) ∧
    (fmtLegal (s.g.sreg a.toNat) = false →
      ∃ t r, exec (.setfmt a k ea) s = .next t ∧ r.code = .illegalOp ∧ Faulted s t r s.g.pc ∧ t.g.fmt k.toNat = s.g.fmt k.toNat)) ∧
  (∀ m : Word, modeLegal m = true ↔
    m.toNat / 2 ^ 28 = 0 ∧ m.toNat % 4 ≠ 3 ∧ m.toNat / 2 ^ 7 % 8 ≤ 4 ∧ m.toNat / 4 % 32 ≤ 12) ∧
  (∀ x : Word, fmtLegal x = true ↔
    let ew := x.toNat / 8 % 8
    let spec := x.toNat / 2 ^ 17 % 4
    x = 0 ∨
      (x.toNat / 2 ^ 21 = 0 ∧ x.getLsbD 16 = false ∧ x.getLsbD 7 = false ∧ x.toNat / 64 % 2 + ew + x.toNat % 8 ≤ 8 ∧
        ¬ (spec = 3 ∧ ew ≠ 0) ∧ ¬ (spec ≠ 3 ∧ ew = 0) ∧ ¬ (spec = 2 ∧ ew < 2)))

/-- `rdsr` completes and writes the value of a register that the group may read; a read of `%clock` latches the high word of the
same time. `wrsr` completes for `%savedexec`, `%scc`, `%dphase`, `%chain`, the trap registers, the sampling and trace ring
addresses and `%tstat`, and the register then holds the value in its writable bits. A register that the group may not read or write
raises ILLEGAL_OP, a fault, at its PC (R290, R291, R377, R379). -/
def Obligations.SystemRegisters : Prop :=
  (∀ (s : State) (p : BitVec 7) (k : BitVec 12) (x : Word), s.readSysReg k.toNat = some x → s.g.openS p →
    Completes (.rdsr p k) s (s.g.pc + 4) { sregs := [p.toNat], latch := decide (k = 0x200) } fun t =>
      t.g.sreg p.toNat = x ∧ (k = 0x200 → t.g.clockhi = s.dev.time.extractLsb' 32 32)) ∧
  (∀ (s : State) (p : BitVec 7) (x : Word), s.g.sreg p.toNat = x → s.g.readyS p → s.g.tr.preq = false →
    Completes (.wrsr p 0x002) s (s.g.pc + 4) { savedexec := true } (fun t => t.g.savedexec = x) ∧
    Completes (.wrsr p 0x004) s (s.g.pc + 4) { scc := true } (fun t => t.g.scc = x.getLsbD 0) ∧
    Completes (.wrsr p 0x040) s (s.g.pc + 4) { dphase := true } (fun t => t.g.dphase = x.extractLsb' 0 5) ∧
    Completes (.wrsr p 0x042) s (s.g.pc + 4) { chain := true } (fun t => t.g.chain = x.extractLsb' 0 2) ∧
    (∀ k : BitVec 12, k.toNat ∈ [0x010, 0x011, 0x012, 0x013, 0x016, 0x017, 0x018] →
      Completes (.wrsr p k) s (s.g.pc + 4) { trap := true } fun t =>
        t.readGroupReg k.toNat = some (if k = 0x010 then x &&& 0xFFFFFFFD else x)) ∧
    (∀ k : BitVec 12, k.toNat ∈ [0x600, 0x601, 0x602, 0x603] → s.g.priv = true →
      Completes (.wrsr p k) s (s.g.pc + 4) { context := true } fun t => t.readDbgReg k.toNat = some x) ∧
    Completes (.wrsr p 0x015) s (s.g.pc + 4) { trap := true } fun t =>
      t.g.tr.tmask = x.getLsbD 0 ∧ t.g.tr.smask = x.getLsbD 4 ∧ t.g.tr.sin = x.getLsbD 5 ∧ t.g.tr.sscc = x.getLsbD 6 ∧
        t.g.tr.inH = s.g.tr.inH ∧ t.g.tr.preq = s.g.tr.preq) ∧
  (∀ (s : State) (p : BitVec 7) (k : BitVec 12), s.g.rule = none → s.g.forced = false → s.g.openS p →
    s.readSysReg k.toNat = none → ∃ t r, exec (.rdsr p k) s = .next t ∧ r.code = .illegalOp ∧ Faulted s t r s.g.pc) ∧
  (∀ (s : State) (p : BitVec 7) (k : BitVec 12), s.g.rule = none → s.g.forced = false → s.g.readyS p →
    s.g.mayWrite k.toNat = false → ∃ t r, exec (.wrsr p k) s = .next t ∧ r.code = .illegalOp ∧ Faulted s t r s.g.pc)

/-- A code is delivered as a trap exactly when R376 allows it; trap entry and a fault leave what R380 and R382 say. -/
def Obligations.TrapOrFault : Prop :=
  ∀ (s : State) (r : Raise) (pc : DWord),
    (r.taken s → Entered s (s.deliver r pc) r pc) ∧ (¬ r.taken s → Faulted s (s.deliver r pc) r pc)

/-- `trap` raises TRAP with its operand as DETAIL and saves PC + 4; `bkpt` without a debugger raises BREAKPOINT with its operand
and saves its own PC. Each is a trap where the handler is enabled and TMASK is 0, and a fault otherwise (R292, R376, R380, R382). -/
def Obligations.TrapInstructions : Prop :=
  (∀ (s : State) (k : BitVec 12), s.preciseCheck = .ok →
    ∃ t u, exec (.trap k) s = .next t ∧ Issued s u (s.g.pc + 4) ∧ Keeps {} s u ∧
      (if s.g.tr.thand.getLsbD 0 = true ∧ s.g.tr.tmask = false then Entered u t { code := .trap, info := k } (s.g.pc + 4)
       else Faulted u t { code := .trap, info := k } (s.g.pc + 4))) ∧
  (∀ (s : State) (k : BitVec 12), s.preciseCheck = .ok → s.cx.attach = false →
    ∃ t, exec (.bkpt k) s = .next t ∧
      (if s.g.tr.thand.getLsbD 0 = true ∧ s.g.tr.tmask = false then Entered s t { code := .breakpoint, info := k } s.g.pc
       else Faulted s t { code := .breakpoint, info := k } s.g.pc))

/-- `rett` in a handler restores what trap entry saved, in one step, and a group with a deferred save request that it leaves
with TMASK = 0 then stands there (R392); outside a handler, and with an illegal MODE saved, it raises ILLEGAL_OP as a fault; a
trap taken in a handler overwrites what is saved (R381, R292). -/
def Obligations.TrapReturn : Prop :=
  (∀ s : State, s.g.tr.inH = true → modeLegal s.g.tr.tsmode = true → s.g.tr.preq = false ∨ s.g.tr.smask = true →
    Completes .rett s s.g.tr.tep { exec := true, cmask := true, mode := true, scc := true, trap := true } fun t =>
      t.g.exec = s.g.tr.tsexec ∧ t.g.cmask = s.g.tr.tscm ∧ t.g.mode = s.g.tr.tsmode ∧ t.g.scc = s.g.tr.sscc ∧
        t.g.tr = { s.g.tr with inH := s.g.tr.sin, tmask := s.g.tr.smask }) ∧
  (∀ s : State, s.g.tr.inH = true → modeLegal s.g.tr.tsmode = true → s.g.tr.preq = true → s.g.tr.smask = false →
    s.g.live = true → s.g.inProgress = false →
    Gives .rett s fun t => t.g.pc = s.g.tr.tep ∧ t.g.exec = s.g.tr.tsexec ∧ t.g.cmask = s.g.tr.tscm ∧ t.g.mode = s.g.tr.tsmode ∧
      t.g.scc = s.g.tr.sscc ∧ t.g.tr = { s.g.tr with inH := s.g.tr.sin, tmask := false, preq := false } ∧ t.g.stands) ∧
  (∀ s : State, s.g.rule = none → s.g.tr.inH = false ∨ modeLegal s.g.tr.tsmode = false →
    ∃ t r, exec .rett s = .next t ∧ r.code = .illegalOp ∧ Faulted s t r s.g.pc) ∧
  ∀ (s : State) (r : Raise) (pc : DWord), s.g.tr.inH = true → r.taken s → Entered s (s.deliver r pc) r pc

/-- Vector loads complete: the delivery carries, lane by lane, the bytes that the group's grove sees (memory, and over it the
stores of the grove that wait for a grant), widened by TYPE for sizes 1 and 2; where a lane reads an uncorrectable word it ends in
ECC_UNCORRECTABLE. With no active lane a load completes without an effect (R58, R83, R149, R154, R155). -/
def Obligations.VectorLoads : Prop :=
  (∀ (s : State) (i : Instr) (size : Nat) (d base : BitVec 7) (off : BitVec 6) (pa : Nat → Nat) (e : Nat → TlbEntry),
    loadRow i = some (size, d, base, off) → d.toNat < 96 → s.g.readyX base 2 → s.g.openX d (sizeRegs size) → s.g.count 0 < 63 →
    s.noAtoms → (∀ l, s.g.acts l → s.reaches .read size (s.g.vaddr base off size l) (pa l) (e l)) → s.g.active ≠ 0 →
    Completes i s (s.g.pc + 4) { vregs := rangeFrom d.toNat (sizeRegs size), counters := true } fun t =>
      ∃ data : List Word,
        Delivers s t { scalar := false, d := d.toNat, n := sizeRegs size, mask := s.g.active, data := data
                       tag := some (s.g.loadTag size), counted := true
                       fail := if (lanesOf s.g.active).any fun l => s.eccBad (pa l) size then some { code := .eccUncorrectable } else none } ∧
        ∀ l j, s.g.acts l → j < sizeRegs size →
          data[32 * j + l]? =
            some (BitVec.ofNat 32 (s.g.widen size (s.bytesFor (groveOf s.g.core) (pa l) size) / 2 ^ (32 * j)))) ∧
  (∀ (s : State) (i : Instr) (size : Nat) (d base : BitVec 7) (off : BitVec 6), loadRow i = some (size, d, base, off) →
    d.toNat < 96 → s.g.openX base 2 → s.g.openX d (sizeRegs size) → s.g.active = 0 →
    Completes i s (s.g.pc + 4) {} fun t => t.g.rets = s.g.rets) ∧
  ∀ (s : State) (gr pa n : Nat), (∀ p ∈ s.pend, p.grove ≠ gr) → s.bytesFor gr pa n = readBytes s.mem pa n

/-- Vector stores complete. Each active lane's bytes are at once what loads of its grove see, those of the highest lane where lanes
meet. A lane is performed at once where its words are granted or its page is never cached; otherwise memory keeps its bytes, the
store stands in the slice and the instruction counts on ST until the grant. No other byte changes. A releasing store issues when
every earlier access of the group has been performed at its scope (R84, R153, R154, R156). -/
def Obligations.VectorStores : Prop :=
  ∀ (s : State) (i : Instr) (size : Nat) (d base : BitVec 7) (off : BitVec 6) (rel : Option (BitVec 3)) (pa : Nat → Nat)
    (e : Nat → TlbEntry),
    storeRow i = some (size, d, base, off, rel) → d.toNat < 96 → s.g.readyX base 2 → s.g.readyX d (sizeRegs size) →
    s.g.count 1 < 63 → s.noAtoms → (∀ sc, rel = some sc → s.released sc) →
    (∀ l, s.g.acts l → s.reaches .write size (s.g.vaddr base off size l) (pa l) (e l) ∧ inFdt (pa l) = false) →
    Completes i s (s.g.pc + 4) { mem := (lanesOf s.g.active).map fun l => (pa l, size), counters := true } fun t =>
      (∀ l k, s.g.acts l → k < size → (∀ m, l < m → s.g.acts m → ¬ (pa m ≤ pa l + k ∧ pa l + k < pa m + size)) →
        (if (e l).home = 3 then readByte t.mem (pa l + k) else t.byteFor (groveOf s.g.core) (pa l + k)) =
          (s.g.storeData d size l).getD k 0) ∧
      (∀ l, s.g.acts l → ¬ s.performsNow (pa l) size (e l) → t.g.count 1 = s.g.count 1 + 1 ∧
        ∃ p ∈ t.pend, p.ofGroup s ∧ p.pa = pa l ∧ p.bytes = s.g.storeData d size l) ∧
      (∀ a, (∀ l, s.g.acts l → pa l ≤ a → a < pa l + size → ¬ s.performsNow (pa l) size (e l)) → readByte t.mem a = readByte s.mem a) ∧
      ((∀ l, s.g.acts l → s.performsNow (pa l) size (e l)) → t.pend = s.pend)

/-- Scalar loads and stores complete: a load delivers the bytes its grove sees; a store is performed at once or stands in the slice,
as a vector store's lane does (R83, R84, R157). -/
def Obligations.ScalarMemory : Prop :=
  ∀ (s : State) (i : Instr) (n : Nat) (d base : BitVec 7) (off : BitVec 6) (pa : Nat) (e : TlbEntry) (st : Bool),
    scalarMemRow i = some (st, n, d, base, off) → s.g.readyS base 2 → s.g.count (if st then 1 else 0) < 63 →
    s.noAtoms → s.reaches (if st then .write else .read) (4 * n) (s.g.saddr base off (4 * n)) pa e →
    if st then
      s.g.readyS d n → inFdt pa = false →
      Completes i s (s.g.pc + 4) { mem := [(pa, 4 * n)], counters := true } fun t =>
        (∀ j, j < n → natOfBytes (if e.home = 3 then readBytes t.mem (pa + 4 * j) 4 else t.bytesFor (groveOf s.g.core) (pa + 4 * j) 4) =
          (s.g.sreg (d.toNat + j)).toNat) ∧
        (¬ s.performsNow pa (4 * n) e → t.g.count 1 = s.g.count 1 + 1 ∧ t.mem = s.mem) ∧
        (s.performsNow pa (4 * n) e → t.pend = s.pend)
    else
      s.g.openS d n →
      Completes i s (s.g.pc + 4) { sregs := rangeFrom d.toNat n, counters := true } fun t =>
        Delivers s t { scalar := true, d := d.toNat, n := n, mask := 0, tag := none, counted := true
                       fail := if s.eccBad pa (4 * n) then some { code := .eccUncorrectable } else none
                       data := (List.range n).map fun j =>
                         BitVec.ofNat 32 (natOfBytes (s.bytesFor (groveOf s.g.core) pa (4 * n)) / 2 ^ (32 * j)) }

/-- The lowest active lane that is misaligned decides, when nothing stands against the lanes below it: MISALIGNED, naming the
base, and no lane loads or stores (R148, R149). -/
def Obligations.MisalignedLane : Prop :=
  ∀ (s : State) (i : Instr) (size : Nat) (d base : BitVec 7) (off : BitVec 6) (l : Nat) (pa : Nat → Nat) (e : Nat → TlbEntry),
    (loadRow i = some (size, d, base, off) ∧ s.g.openX d (sizeRegs size) ∧ s.g.count 0 < 63 ∨
      storeRow i = some (size, d, base, off, none) ∧ s.g.readyX d (sizeRegs size) ∧ s.g.count 1 < 63) →
    s.g.rule = none → s.g.forced = false → s.g.readyX base 2 → s.noAtoms → s.g.acts l →
    (s.g.vaddr base off size l).toNat % size ≠ 0 →
    (∀ m, m < l → s.g.acts m →
      s.reaches (if (loadRow i).isSome then .read else .write) size (s.g.vaddr base off size m) (pa m) (e m)) →
    ∃ t, exec i s = .next t ∧ t.mem = s.mem ∧ t.pend = s.pend ∧ t.g.rets = s.g.rets ∧
      Faulted s t { code := .misaligned, opnd := 4, va := s.g.vaddr base off size l } s.g.pc

/-- Scratchpad loads and stores complete (R77, R158): a load delivers the words of the window, or ends in ECC_UNCORRECTABLE where it
reads an uncorrectable one (R58); a store writes them, the highest-numbered lane's last. With no active lane nothing happens. -/
def Obligations.ScratchpadAccess : Prop :=
  (∀ (s : State) (i : Instr) (size : Nat) (d base : BitVec 7) (off : BitVec 6) (at_ : Nat → Nat) (st : Bool),
    spadRow i = some (st, size, d, base, off) → d.toNat < 96 → s.g.readyX base → s.g.active ≠ 0 →
    s.g.count (if st then 1 else 0) < 63 →
    (∀ l, s.g.acts l → s.g.soff base off size l = at_ l ∧ at_ l % size = 0 ∧ at_ l + size ≤ s.tm.w) →
    if st then
      s.g.readyX d (sizeRegs size) →
      Completes i s (s.g.pc + 4) { win := (lanesOf s.g.active).map fun l => (at_ l, size), anyHandle := true } fun t =>
        ∀ l k, s.g.acts l → k < size → (∀ m, l < m → s.g.acts m → at_ m ≠ at_ l) →
          winByte t.tm.win (at_ l + k) = (s.g.storeData d size l).getD k 0
    else
      s.g.openX d (sizeRegs size) →
      Completes i s (s.g.pc + 4) { vregs := rangeFrom d.toNat (sizeRegs size), counters := true } fun t =>
        ∃ data : List Word,
          Delivers s t { scalar := false, d := d.toNat, n := sizeRegs size, mask := s.g.active, data := data
                         tag := some (s.g.loadTag size), counted := true
                         fail := if (lanesOf s.g.active).any fun l => s.tm.eccBad (at_ l) size then some { code := .eccUncorrectable }
                           else none } ∧
          ∀ l j, s.g.acts l → j < sizeRegs size →
            data[32 * j + l]? = some (BitVec.ofNat 32 (winNat s.tm.win (at_ l + 4 * j) 4))) ∧
  ∀ (s : State) (i : Instr) (size : Nat) (d base : BitVec 7) (off : BitVec 6) (st : Bool), spadRow i = some (st, size, d, base, off) →
    d.toNat < 96 → s.g.openX base → s.g.openX d (sizeRegs size) → s.g.active = 0 →
    Completes i s (s.g.pc + 4) {} fun t => t.g.rets = s.g.rets

/-- Atomics on memory complete: each active lane sends one request to the home grove of its word, with its operation, operands and
scope, lanes in ascending order; a returning one marks its destination empty and counts on LD, `red` counts on ST. With no active
lane they complete without an effect (R159, R160, R162). -/
def Obligations.AtomicsIssue : Prop :=
  (∀ (s : State) (i : Instr) (op : Nat) (dst : Option (BitVec 7)) (addr b : BitVec 7) (sc : BitVec 3) (pa : Nat → Nat)
    (e : Nat → TlbEntry),
    atomRow i = some (op, dst, addr, b, sc) → atomTypes op s.g.type = true → s.g.readyP addr 2 → s.g.readyP b (s.g.atomRegs op) →
    s.g.taggedN b (s.g.atomRegs op) → (∀ d, dst = some d → d.toNat < 96 ∧ s.g.openT d) →
    s.g.count (if dst.isSome then 0 else 1) < 63 → s.g.active ≠ 0 →
    (∀ l, s.g.acts l → s.reaches .write (typeW s.g.type / 8) (s.g.vpair addr.toNat l) (pa l) (e l)) →
    (∀ h, (s.grove h).svcq.length + ((lanesOf s.g.active).filter fun l => homeGrove (pa l) == h).length ≤ 512) →
    Completes i s (s.g.pc + 4) { vregs := (match dst with | some d => s.g.pairOf d | none => []), counters := true } fun t =>
      (∀ h, ∃ new : List SvcReq, (t.grove h).svcq = (s.grove h).svcq ++ new ∧
        new.map (·.lane) = ((lanesOf s.g.active).filter fun l => homeGrove (pa l) == h) ∧
        ∀ r ∈ new, r.g = s.g.key ∧ r.op = op ∧ r.ty = s.g.type ∧ r.scope = sc ∧ r.pa = pa r.lane ∧ r.ret = dst.isSome ∧
          r.x.toNat = s.g.opv b r.lane ∧ (op = 7 → r.y.toNat = s.g.atomY b r.lane)) ∧
      (∀ d, dst = some d → t.g.count 0 = s.g.count 0 + 1 ∧ ∀ n ∈ s.g.pairOf d, t.g.isEmptyV n = true) ∧
      (dst = none → t.g.count 1 = s.g.count 1 + 1)) ∧
  ∀ (s : State) (i : Instr) (op : Nat) (dst : Option (BitVec 7)) (addr b : BitVec 7) (sc : BitVec 3),
    atomRow i = some (op, dst, addr, b, sc) → s.g.openX addr 2 → s.g.openX b (s.g.atomRegs op) → (∀ d, dst = some d → s.g.openT d) →
    s.g.active = 0 →
    Completes i s (s.g.pc + 4) {} fun t => t.groves = s.groves ∧ t.g.atoms = s.g.atoms

/-- ATOMIC_REQUEST: the home grove performs its oldest request as one read-modify-write, once its L1 holds the grant of the word or
the page is never cached, and keeps the old value for the reply. A store of the issuing grove to the location comes first; a word
not granted and not yet asked for is asked for by GETW, and nothing else happens (R91, R110, R160). -/
def Obligations.AtomicPerformed : Prop :=
  (∀ (s : State) (gr : Nat) (r : SvcReq) (rest : List SvcReq), (s.grove gr).svcq = r :: rest →
    (∀ q ∈ rest, q.id = r.id → q.pa ≠ r.pa ∧ q.lane ≠ r.lane) → s.atomBehind r = false → s.atomGranted gr r = true →
    s.eccBad r.pa r.size = false → inFdt r.pa = false →
    let old := readNat s.mem r.pa r.size
    Gives (.atomicRequest gr) s fun t => (t.grove gr).svcq = rest ∧
      readNat t.mem r.pa r.size = ((rmw r.op r.ty old r.x.toNat r.y.toNat).getD old) % 2 ^ (8 * r.size) ∧
      (∀ a, a < r.pa ∨ r.pa + r.size ≤ a → readByte t.mem a = readByte s.mem a) ∧
      ∀ g, s.group? r.g = some g → r.ret = true → ∃ h, t.group? r.g = some h ∧
        h.atoms = g.atoms.map fun a => if a.id = r.id then { a with replies := a.replies ++ [(r.lane, BitVec.ofNat 64 old)] } else a) ∧
  (∀ (s : State) (gr : Nat) (r : SvcReq) (rest : List SvcReq), (s.grove gr).svcq = r :: rest → s.atomBehind r = true →
    exec (.atomicRequest gr) s = .next s) ∧
  ∀ (s : State) (gr : Nat) (r : SvcReq) (rest : List SvcReq), (s.grove gr).svcq = r :: rest → s.atomBehind r = false →
    s.atomGranted gr r = false → s.eccBad r.pa r.size = false → (∀ q ∈ s.coh, q.grove = gr → q.line ≠ lineOf r.pa) →
    Gives (.atomicRequest gr) s fun t => t.mem = s.mem ∧ t.groves = s.groves ∧
      ∃ q : CohReq, t.coh = s.coh ++ [q] ∧ q.grove = gr ∧ q.line = lineOf r.pa ∧ q.write = true ∧ q.taken = false

/-- ATOMIC_REPLY and LOAD_RETURN: what arrives is written to its lanes, and the register is full when all of it has come; a load
that has failed leaves its registers empty and faults its group (R58, R139, R141, R160). -/
def Obligations.RepliesArrive : Prop :=
  (∀ (s : State) (k l : Nat) (g : Group) (a : AtomWait) (x : DWord) (rest : List (Nat × DWord)), s.group? k = some g →
    (g.atoms.find? fun a => !a.replies.isEmpty) = some a → a.replies = (l, x) :: rest →
    Gives (.atomicReply k) s fun t => ∃ h, t.group? k = some h ∧ h.lane a.d l = x.extractLsb' 0 32 ∧
      (a.wide = true → h.lane (a.d + 1) l = x.extractLsb' 32 32) ∧
      (setBit a.left l false = 0 → h.isEmptyV a.d = false ∧ h.tag a.d = a.tag ∧
        (a.wide = true → h.isEmptyV (a.d + 1) = false ∧ h.tag (a.d + 1) = a.tag))) ∧
  (∀ (s : State) (k : Nat) (g : Group) (r : Ret) (rest : List Ret), s.group? k = some g → g.rets = r :: rest → r.fail = none →
    (∀ q ∈ s.coh, q.g = k → q.write = true) →
    Gives (.loadReturn k) s fun t => ∃ h, t.group? k = some h ∧ h.rets = rest.filter (·.id != r.id) ∧
      ∀ j, j < r.n →
        (r.scalar = true → h.sreg (r.d + j) = r.data.getD j 0 ∧ h.isEmptyS (r.d + j) = false) ∧
        (r.scalar = false → h.isEmptyV (r.d + j) = false ∧ ∀ l, l < 32 →
          h.lane (r.d + j) l = if laneBit r.mask l then r.data.getD (32 * j + l) 0 else g.lane (r.d + j) l)) ∧
  ∀ (s : State) (k : Nat) (g : Group) (r : Ret) (rest : List Ret) (f : Raise), s.group? k = some g → g.rets = r :: rest →
    r.fail = some f → (∀ q ∈ s.coh, q.g = k → q.write = true) → g.st ≠ .ended → g.st ≠ .stopped →
    Gives (.loadReturn k) s fun t => ∃ h, t.group? k = some h ∧ h.rets = rest.filter (·.id != r.id) ∧ h.st = .stopped ∧
      h.stLeft = g.st ∧ (∀ n, h.sreg n = g.sreg n ∧ h.isEmptyS n = g.isEmptyS n ∧ h.isEmptyV n = g.isEmptyV n) ∧
      ∀ c, s.ctx? g.ctx = some c → ∃ c', t.ctx? g.ctx = some c' ∧ c'.faults = c.faults ++ [{ g := k, raise := f, pc := g.pc }] ∧
        c'.halt ≠ .lowered

/-- Atomics on window words complete (R161): the lanes run in ascending order, each on the word as the lanes before it left it, and the
old values are delivered; with no active lane nothing happens. -/
def Obligations.ScratchpadAtomics : Prop :=
  (∀ (s : State) (i : Instr) (op : Nat) (d addr b : BitVec 7) (at_ : Nat → Nat), spadAtomRow i = some (op, d, addr, b) →
    d.toNat < 96 → (s.g.type = 0 ∨ s.g.type = 1 ∨ op = 0 ∧ s.g.type = 8) → s.g.readyX addr → s.g.readyP b (s.g.atomRegs op) →
    s.g.taggedN b (s.g.atomRegs op) → s.g.openX d → s.g.count 0 < 63 → s.g.active ≠ 0 →
    (∀ l, s.g.acts l → (s.g.vsrc addr.toNat l).toNat = at_ l ∧ at_ l % 4 = 0 ∧ at_ l + 4 ≤ s.tm.w) →
    Completes i s (s.g.pc + 4)
      { vregs := [d.toNat], win := (lanesOf s.g.active).map fun l => (at_ l, 4), anyHandle := true, counters := true } fun t =>
      let run := spadAtoms s.g op b ((lanesOf s.g.active).map fun l => (l, (at_ l : Int))) s.tm.win
      t.tm.win = run.2.1 ∧
        Delivers s t { scalar := false, d := d.toNat, n := 1, mask := s.g.active, data := (List.range 32).map (SMap.get 0 run.1)
                       tag := some (tagOf s.g.dfmt s.g.type), counted := true
                       fail := if (lanesOf s.g.active).any fun l => s.tm.eccBad (at_ l) 4 then some { code := .eccUncorrectable }
                         else none }) ∧
  (∀ (s : State) (i : Instr) (op : Nat) (d addr b : BitVec 7), spadAtomRow i = some (op, d, addr, b) → d.toNat < 96 →
    s.g.openX addr → s.g.openX b (s.g.atomRegs op) → s.g.openX d → s.g.active = 0 →
    Completes i s (s.g.pc + 4) {} fun t => t.g.rets = s.g.rets) ∧
  (∀ (g : Group) (op : Nat) (b : BitVec 7) (l off : Nat) (t : List (Nat × Int)) (w : SMap Byte) (v : Nat),
    rmw op g.type (winNat w off 4) (g.atomX b l) (g.atomY b l) = some v →
    (spadAtoms g op b ((l, (off : Int)) :: t) w).2.1 = (spadAtoms g op b t (winWrite w off (bytesOfNat 4 v))).2.1)

/-- `fence` completes when the accesses it names have been performed at its scope and waits otherwise. `prefetch` completes whatever
its range holds; `cflush`, `cinv` and `icinv` complete where no page of the range raises or waits. They write no byte but the leaf
entries that their walks stamp. `cflush` and `cinv` leave no dirty word of the lines in the grove's L1, `cinv` no line but a pinned one, at
`.die` and wider also none in the L2; `icinv` leaves none in the instruction caches of its scope (R25, R163 to R166). -/
def Obligations.FencesAndCacheControl : Prop :=
  (∀ (s : State) (kind : BitVec 2) (sc : BitVec 3), s.noAtoms → s.g.count 0 = 0 → (kind ≠ 0 → s.released sc) →
    Completes (.fence kind sc) s (s.g.pc + 4) {} fun _ => True) ∧
  (∀ (s : State) (kind : BitVec 2) (sc : BitVec 3), s.g.forced = false → s.noAtoms →
    s.g.count 0 ≠ 0 ∨ (kind ≠ 0 ∧ 2 ≤ sc.toNat ∧ s.g.count 1 ≠ 0) →
    Gives (.fence kind sc) s fun t => t.g.st = .stalled ∧ t.g.reason = .acquire ∧ t.g.pc = s.g.pc) ∧
  (∀ (s : State) (d base : BitVec 7) (off : BitVec 6) (sc : BitVec 3) (e : Bool), s.g.readyS base 2 → s.g.readyS d →
    Completes (.prefetch d base off sc e) s (s.g.pc + 4)
      { mem := s.stamps (pagesOf (s.g.saddr base off 128) (min (s.g.sreg d.toNat).toNat (2 ^ 20))) } fun _ => True) ∧
  (∀ (s : State) (d base : BitVec 7) (off : BitVec 6) (sc : BitVec 3) (e : Bool) (r : State × List (Option (Nat × TlbEntry))),
    s.g.readyS base 2 → s.g.readyS d → s.g.count 1 < 63 → s.noAtoms →
    let va := s.g.saddr base off 128
    let n := (s.g.sreg d.toNat).toNat
    let lines := (cachedLines (rangeLines va n ((pagesOf va n).zip r.2))).map (·.1)
    s.cacheRange va n = .ok r → (∀ p ∈ s.pend, p.grove = groveOf s.g.core → lineOf p.pa ∉ lines) →
    (Completes (.cflush d base off sc e) s (s.g.pc + 4) { mem := s.stamps (pagesOf va n) } fun t =>
      ∀ x ∈ lines, (t.grove (groveOf s.g.core)).wDirty x = 0) ∧
    Completes (.cinv d base off sc e) s (s.g.pc + 4) { mem := s.stamps (pagesOf va n) } fun t =>
      ∀ x ∈ lines, (t.grove (groveOf s.g.core)).wDirty x = 0 ∧
        ((t.grove (groveOf s.g.core)).pinnedLine x = false → (t.grove (groveOf s.g.core)).holds x = false) ∧
        (2 ≤ sc.toNat → ∀ y ∈ t.l2Set x, y.line = x → y.pinned = true)) ∧
  (∀ (s : State) (addr b : BitVec 7) (sc : BitVec 3) (r : State × List (Option (Nat × TlbEntry))),
    s.g.readyS addr 2 → s.g.readyS b → s.noAtoms → s.released 3 →
    let va := s.g.spair addr.toNat
    let n := (s.g.sreg b.toNat).toNat
    s.cacheRange va n = .ok r →
    Completes (.icinv addr b sc) s (s.g.pc + 4) { mem := s.stamps (pagesOf va n) } fun t =>
      ∀ p ∈ rangeLines va n ((pagesOf va n).zip r.2), ∀ c ∈ scopeCores s.g.core sc, s.resident s.g.ctx c = true →
        ∀ i ∈ (t.core c).icache, i.line ≠ p.1)

/-- The page instructions (R169 to R172, R498): what each writes on success, and that a status other than OK writes the status
word alone. -/
def Obligations.PageInstructions : Prop :=
  (∀ (s u : State) (i : Instr) (d addr b : BitVec 7) (n cnt code : Nat), pageRow s i = some (d, addr, b, n, .report cnt code u) →
    s.g.priv = true → s.g.readyS addr 2 → s.g.readyS b n → s.g.openS d → s.noAtoms → code ≠ 0 →
    Completes i s (s.g.pc + 4) { sregs := [d.toNat] } fun t => t.g.sreg d.toNat = BitVec.ofNat 32 (cnt * 65536 + code)) ∧
  (∀ (s : State) (d addr b : BitVec 7) (ea f : Nat) (e : DWord), s.cx.live = true → s.g.priv = true → s.g.readyS addr 2 →
    s.g.readyS b → s.g.openS d → s.noAtoms → (s.g.spair addr.toNat).toNat < 2 ^ 54 → (s.g.spair addr.toNat).toNat % 65536 = 0 →
    s.g.sreg b.toNat &&& 0xFFF0FE03 = 0 → ((s.g.sreg b.toNat).extractLsb' 16 4).toNat ≤ 11 →
    s.pageWalk (s.g.spair addr.toNat).toNat = .entry ea e → pteV e = false →
    (s.cx.head ((s.g.sreg b.toNat).extractLsb' 16 4).toNat).toNat = f → f ≠ 0xFFFFFFFF → apart ea 8 (fdtAt f) 16 →
    inFdt ea = false →
    Completes (.pgmap d addr b) s (s.g.pc + 4)
      { sregs := [d.toNat], mem := [(ea, 8), (fdtAt f, 1), (fdtAt f + 8, 2)], context := true } fun t =>
      let k := ((s.g.sreg b.toNat).extractLsb' 16 4).toNat
      t.g.sreg d.toNat = 0x00010000 ∧ t.refcnt f = 1 ∧ t.frameState f = 1 ∧
        readD t.mem ea = s.cx.gen ++ BitVec.ofNat 36 f ++ ((s.g.sreg b.toNat).extractLsb' 0 12 &&& 0x1FC#12 ||| 3#12) ∧
        t.cx.head k = BitVec.ofNat 32 (s.frameLink f) ∧ t.cx.listLen k = s.cx.listLen k - 1) ∧
  (∀ (s : State) (d addr b : BitVec 7) (sea dea : Nat) (e x : DWord), s.g.priv = true → s.g.readyS addr 2 →
    s.g.readyS b 2 → s.g.openS d → s.noAtoms → pageArg (s.g.spair addr.toNat).toNat = true →
    pageArg ((s.g.spair b.toNat).toNat / 65536 * 65536) = true → (s.g.spair b.toNat).extractLsb' 1 15 = 0 →
    s.pageWalk (s.g.spair addr.toNat).toNat = .entry sea e → pteV e = true → pteHown e = false → inHost (pteFrame e * 65536) = false →
    s.pageWalk ((s.g.spair b.toNat).toNat / 65536 * 65536) = .entry dea x → pteV x = false → s.refcnt (pteFrame e) < 65535 →
    inFdt sea = false → inFdt dea = false → apart sea 8 dea 8 → apart sea 8 (fdtAt (pteFrame e) + 8) 2 → apart dea 8 (fdtAt (pteFrame e) + 8) 2 →
    let n := s.refcnt (pteFrame e) + 1
    let e' := e ||| 0x200 ||| if (s.g.spair b.toNat).getLsbD 0 then 0x100 else 0
    Completes (.pgshare d addr b) s (s.g.pc + 4) { sregs := [d.toNat], mem := [(sea, 8), (dea, 8), (fdtAt (pteFrame e) + 8, 2)] } fun t =>
      t.g.sreg d.toNat = BitVec.ofNat 32 (n * 65536) ∧ t.refcnt (pteFrame e) = n ∧ readD t.mem sea = e' ∧
        readD t.mem dea = pteStamp e' s.cx.gen) ∧
  (∀ (s : State) (d addr b : BitVec 7) (ea : Nat) (e : DWord), s.g.priv = true → s.g.readyS addr 2 → s.g.readyS b → s.g.openS d →
    s.noAtoms → pageArg (s.g.spair addr.toNat).toNat = true → (s.g.sreg b.toNat).extractLsb' 1 31 = 0 →
    s.pageWalk (s.g.spair addr.toNat).toNat = .entry ea e → pteV e = true → inHost (pteFrame e * 65536) = false →
    inFdt ea = false → apart ea 8 (fdtAt (pteFrame e)) 16 →
    ((s.g.sreg b.toNat).getLsbD 0 = true →
      Completes (.pgrel d addr b) s (s.g.pc + 4) { sregs := [d.toNat] } fun t =>
        t.g.sreg d.toNat = BitVec.ofNat 32 (s.refcnt (pteFrame e) * 65536)) ∧
    ((s.g.sreg b.toNat).getLsbD 0 = false → pteHown e = false → 1 < s.refcnt (pteFrame e) →
      Completes (.pgrel d addr b) s (s.g.pc + 4) { sregs := [d.toNat], mem := [(ea, 8), (fdtAt (pteFrame e) + 8, 2)] } fun t =>
        t.g.sreg d.toNat = BitVec.ofNat 32 ((s.refcnt (pteFrame e) - 1) * 65536) ∧ readD t.mem ea = 0 ∧
          t.refcnt (pteFrame e) = s.refcnt (pteFrame e) - 1) ∧
    ((s.g.sreg b.toNat).getLsbD 0 = false → pteHown e = false → s.refcnt (pteFrame e) = 1 →
      apart ea 8 (pteFrame e * 65536) 65536 → apart (fdtAt (pteFrame e)) 16 (pteFrame e * 65536) 65536 →
      Completes (.pgrel d addr b) s (s.g.pc + 4)
        { sregs := [d.toNat], mem := [(ea, 8), (fdtAt (pteFrame e), 16), (pteFrame e * 65536, 65536)], counters := true
          context := true, others := true } fun t =>
        t.g.sreg d.toNat = 0 ∧ readD t.mem ea = 0 ∧ t.refcnt (pteFrame e) = 0 ∧ t.frameState (pteFrame e) = 0))

/-- The steps of a barrier object (R175): an arrival beyond an expectation applies nothing; otherwise the counts rise, and the
phase ends when both meet expectations that are not both 0. -/
def Obligations.BarrierSteps : Prop :=
  (∀ (b : Bar) (a n : Nat), b.arrive a n = none ↔ b.exparr.toNat < b.arr.toNat + a ∨ b.expbytes.toNat < b.bytes.toNat + n) ∧
  (∀ (b c : Bar) (a n : Nat), b.arrive a n = some c →
    c.exparr = b.exparr ∧ c.expbytes = b.expbytes ∧
      if b.arr.toNat + a = b.exparr.toNat ∧ b.bytes.toNat + n = b.expbytes.toNat ∧ 0 < b.exparr.toNat + b.expbytes.toNat then
        c.phase = b.phase + 1 ∧ c.arr = 0 ∧ c.bytes = 0
      else c.phase = b.phase ∧ c.arr.toNat = b.arr.toNat + a ∧ c.bytes.toNat = b.bytes.toNat + n) ∧
  (∀ (b : Bar) (k : Word), b.complete k = true ↔ ∃ n : Nat, 1 ≤ n ∧ n ≤ 2 ^ 31 ∧ b.phase = k + BitVec.ofNat 32 n)

/-- The barrier instructions complete on the object at their offset. `barr` and `barr.drop` where the object cannot take another
arrival, `bexp` below the bytes already posted and `bexp.add` past 2^32 raise BARRIER_OVERFLOW and write nothing (R175 to R177). -/
def Obligations.BarrierInstructions : Prop :=
  (∀ (s : State) (d a : BitVec 7) (ea ed : Bool) (off : Word), s.g.sreg d.toNat = off → s.g.readyS a 2 → s.g.readyS d → s.noAtoms →
    s.objAt off 16 →
    Completes (.binit d a ea ed) s (s.g.pc + 4) { scc := true, win := [(off.toNat, 16)], anyHandle := true } fun t =>
      let o := s.tm.bar off.toNat
      let arr : BitVec 16 := BitVec.ofNat 16 (s.g.sreg a.toNat).toNat
      let n := s.g.sreg (a.toNat + 1)
      if o.arr = 0 ∧ o.bytes = 0 then t.g.scc = true ∧ t.tm.bar off.toNat = { o with exparr := arr, expbytes := n }
      else t.tm.bar off.toNat = o ∧ (t.g.scc = true ↔ o.exparr = arr ∧ o.expbytes = n)) ∧
  (∀ (s : State) (d a : BitVec 7) (ea : Bool) (off : Word), s.g.sreg a.toNat = off → s.g.readyS a → s.g.openS d → s.noAtoms →
    s.objAt off 16 →
    (∀ o, (s.tm.bar off.toNat).arrive 1 0 = some o →
      Completes (.barr d a ea) s (s.g.pc + 4) { sregs := [d.toNat], win := [(off.toNat, 16)], anyHandle := true } fun t =>
        t.g.sreg d.toNat = (s.tm.bar off.toNat).phase ∧ t.tm.bar off.toNat = o) ∧
    ((s.tm.bar off.toNat).arr ≠ (s.tm.bar off.toNat).exparr →
      Completes (.barrDrop d a ea) s (s.g.pc + 4) { sregs := [d.toNat], win := [(off.toNat, 16)], anyHandle := true } fun t =>
        let o := s.tm.bar off.toNat
        t.g.sreg d.toNat = o.phase ∧ t.tm.bar off.toNat = ({ o with exparr := o.exparr - 1 } : Bar).check)) ∧
  (∀ (s : State) (d a : BitVec 7) (ea ed : Bool) (off n : Word), s.g.sreg d.toNat = off → s.g.sreg a.toNat = n → s.g.readyS a →
    s.g.readyS d → s.noAtoms → s.objAt off 16 →
    ((s.tm.bar off.toNat).bytes.toNat ≤ n.toNat →
      Completes (.bexp d a ea ed) s (s.g.pc + 4) { win := [(off.toNat, 16)], anyHandle := true } fun t =>
        t.tm.bar off.toNat = ({ s.tm.bar off.toNat with expbytes := n } : Bar).check) ∧
    ((s.tm.bar off.toNat).expbytes.toNat + n.toNat < 2 ^ 32 →
      Completes (.bexpAdd d a ea ed) s (s.g.pc + 4) { win := [(off.toNat, 16)], anyHandle := true } fun t =>
        t.tm.bar off.toNat = { s.tm.bar off.toNat with expbytes := (s.tm.bar off.toNat).expbytes + n })) ∧
  (∀ (s : State) (d a : BitVec 7) (ea : Bool) (off : Word), s.g.sreg a.toNat = off → s.g.readyS a 2 → s.g.openS d → s.noAtoms →
    s.objAt off 16 →
    Completes (.btest d a ea) s (s.g.pc + 4) { sregs := [d.toNat], scc := true } fun t =>
      t.g.sreg d.toNat = (s.tm.bar off.toNat).phase ∧ t.g.scc = (s.tm.bar off.toNat).complete (s.g.sreg (a.toNat + 1))) ∧
  (∀ (s : State) (d a : BitVec 7) (ea : Bool) (off : Word), s.g.rule = none → s.g.forced = false → s.g.sreg a.toNat = off →
    s.g.readyS a → s.g.openS d → s.noAtoms → s.objAt off 16 →
    ((s.tm.bar off.toNat).arrive 1 0 = none → ∃ t r, exec (.barr d a ea) s = .next t ∧ r.code = .barrierOverflow ∧
      Faulted s t r s.g.pc ∧ t.tm.win = s.tm.win) ∧
    ((s.tm.bar off.toNat).arr = (s.tm.bar off.toNat).exparr → ∃ t r, exec (.barrDrop d a ea) s = .next t ∧
      r.code = .barrierOverflow ∧ Faulted s t r s.g.pc ∧ t.tm.win = s.tm.win)) ∧
  (∀ (s : State) (d a : BitVec 7) (ea ed : Bool) (off n : Word), s.g.rule = none → s.g.forced = false → s.g.sreg d.toNat = off →
    s.g.sreg a.toNat = n → s.g.readyS a → s.g.readyS d → s.noAtoms → s.objAt off 16 →
    (n.toNat < (s.tm.bar off.toNat).bytes.toNat → ∃ t r, exec (.bexp d a ea ed) s = .next t ∧ r.code = .barrierOverflow ∧
      Faulted s t r s.g.pc ∧ t.tm.win = s.tm.win) ∧
    (2 ^ 32 ≤ (s.tm.bar off.toNat).expbytes.toNat + n.toNat → ∃ t r, exec (.bexpAdd d a ea ed) s = .next t ∧
      r.code = .barrierOverflow ∧ Faulted s t r s.g.pc ∧ t.tm.win = s.tm.win))

/-- Waits: `bwait`, `waitc` and `gbar` complete when what they wait for holds, and otherwise leave the group blocked or stalled at
their PC with its reason. A group arrives at its `gbar` when its earlier accesses have been performed at `.dev`; one that is not
cooperative raises GRID_BARRIER (R177, R179, R191, R246). -/
def Obligations.Waits : Prop :=
  (∀ (s : State) (p k : BitVec 7) (off : Word), s.g.sreg p.toNat = off → s.g.readyS p → s.g.readyS k → s.noAtoms → s.objAt off 16 →
    ((s.tm.bar off.toNat).complete (s.g.sreg k.toNat) = true → Completes (.bwait p k) s (s.g.pc + 4) {} fun _ => True) ∧
    (s.g.forced = false → (s.tm.bar off.toNat).complete (s.g.sreg k.toNat) = false →
      ∃ t, exec (.bwait p k) s = .next t ∧ t.g.pc = s.g.pc ∧ t.g.st = .blocked ∧ t.g.reason = .barrier ∧
        t.g.wait = .barrier off.toNat (s.g.sreg k.toNat))) ∧
  (∀ (s : State) (c : BitVec 3) (n : BitVec 6), c.toNat ≤ 5 →
    let old := (s.g.ops c.toNat).take ((s.g.ops c.toNat).length - n.toNat)
    ((∀ x ∈ old, x.2 = true) → Completes (.waitc c n) s (s.g.pc + 4) {} fun _ => True) ∧
    (s.g.forced = false → (∃ x ∈ old, x.2 = false) →
      ∃ t, exec (.waitc c n) s = .next t ∧ t.g.pc = s.g.pc ∧ t.g.st = .stalled ∧ t.g.reason = .waitc)) ∧
  (∀ s : State, s.g.coop = true → s.noAtoms → s.g.forced = false → s.g.gbarIn = false → ¬ s.released 3 →
    ∃ t, exec .gbar s = .next t ∧ t.g.pc = s.g.pc ∧ t.g.st = .blocked ∧ t.g.reason = .gbar ∧ t.g.gbarUse = s.g.gbarUse) ∧
  (∀ (s : State) (n : Nat), s.g.coop = true → s.noAtoms → s.g.gbarIn = true ∨ s.released 3 →
    n = (if s.g.gbarIn then s.g.gbarUse else s.g.gbarUse + 1) →
    let s' := { s with g := { s.g with gbarIn := true, gbarUse := n } }
    (s'.gbarDone n = true → Completes .gbar s (s.g.pc + 4) {} fun t => t.g.gbarUse = n ∧ t.g.gbarIn = false) ∧
    (s.g.forced = false → s'.gbarDone n = false →
      ∃ t, exec .gbar s = .next t ∧ t.g.pc = s.g.pc ∧ t.g.st = .blocked ∧ t.g.reason = .gbar ∧ t.g.wait = .gbar n)) ∧
  (∀ s : State, s.g.coop = false → s.g.rule = none → s.g.forced = false →
    ∃ t r, exec .gbar s = .next t ∧ r.code = .gridBarrier ∧ Faulted s t r s.g.pc)

/-- `monw` completes: it arms a monitor and marks its token empty, after ending one that is armed with REPLACED, or disarms
(R167). A monitor that has met its cause, or whose timeout expires, writes the cause to its token and arrives; while the line of
its context is raised it keeps the cause and posts nothing (R168, R383). -/
def Obligations.Monitors : Prop :=
  (∀ (s : State) (d addr b : BitVec 7) (sc : BitVec 3) (pa : Nat) (e : TlbEntry), s.focused →
    ((s.grove (groveOf s.g.core)).mons.erase s.g.key).length < 64 → s.g.readyS addr 2 → s.g.readyS b 2 → s.g.openS d → s.noAtoms →
    (s.g.sreg (b.toNat + 1)).getLsbD 31 = false → s.objAt (s.g.sreg b.toNat) 16 →
    let va := s.g.spair addr.toNat
    let words := ((s.g.sreg (b.toNat + 1)).extractLsb' 26 5).toNat + 1
    va.toNat % 4 = 0 → va.toNat % 128 + 4 * words ≤ 128 → s.reaches .read 4 va pa e → s.eccBad pa 4 = false →
    let armed := fun (t : State) => t.g.isEmptyS d.toNat = true ∧
      t.g.mon = some { pa := pa, va := va.toNat, words := words, scope := sc, obj := (s.g.sreg b.toNat).toNat, token := d.toNat
                       timeout := ((s.g.sreg (b.toNat + 1)).extractLsb' 0 26).toNat, cause := none } ∧
      s.g.key ∈ (t.grove (groveOf s.g.core)).mons
    (s.g.mon = none → (s.grove (groveOf s.g.core)).mons.length < 64 →
      Completes (.monw d addr b sc) s (s.g.pc + 4) { sregs := [d.toNat] } fun t => armed t ∧ t.g.sreg d.toNat = s.g.sreg d.toNat) ∧
    ∀ m o, s.g.mon = some m → m.token ≠ d.toNat → s.tm.eccBad m.obj 16 = false → (s.tm.bar m.obj).arrive 1 0 = some o →
      Completes (.monw d addr b sc) s (s.g.pc + 4) { sregs := [d.toNat, m.token], win := [(m.obj, 16)], anyHandle := true } fun t =>
        armed t ∧ t.g.sreg m.token = BitVec.ofNat 32 (m.cause.getD 6) ∧ t.g.isEmptyS m.token = false ∧ t.tm.bar m.obj = o) ∧
  (∀ (s : State) (d addr b : BitVec 7) (sc : BitVec 3), s.focused → s.g.readyS addr 2 → s.g.readyS b 2 → s.g.openS d →
    (s.g.sreg (b.toNat + 1)).getLsbD 31 = true →
    (s.g.mon = none → Completes (.monw d addr b sc) s (s.g.pc + 4) { sregs := [d.toNat] } fun t => t.g.sreg d.toNat = 0) ∧
    ∀ m o, s.g.mon = some m → m.token ≠ d.toNat → s.tm.eccBad m.obj 16 = false → (s.tm.bar m.obj).arrive 1 0 = some o →
      Completes (.monw d addr b sc) s (s.g.pc + 4) { sregs := [d.toNat, m.token], win := [(m.obj, 16)], anyHandle := true } fun t =>
        t.g.mon = none ∧ t.g.sreg d.toNat = 0 ∧ t.g.sreg m.token = BitVec.ofNat 32 (m.cause.getD 6) ∧
          t.g.isEmptyS m.token = false ∧ t.tm.bar m.obj = o) ∧
  (∀ (s : State) (k : Nat) (g : Group) (m : Monitor) (tm : Team) (o : Bar) (c : Nat), s.group? k = some g → g.mon = some m →
    s.lineUp g.ctx = false → s.team? g.team = some tm → tm.eccBad m.obj 16 = false → (tm.bar m.obj).arrive 1 0 = some o →
    ((m.cause = some c → ∃ t h u, exec (.monitorEnd k) s = .next t ∧ t.group? k = some h ∧ h.mon = none ∧
        h.sreg m.token = BitVec.ofNat 32 c ∧ h.isEmptyS m.token = false ∧ t.team? g.team = some u ∧ u.bar m.obj = o) ∧
     (m.cause = none → m.timeout ≠ 0 → ∃ t h u, exec (.monitorTimeout k) s = .next t ∧ t.group? k = some h ∧ h.mon = none ∧
        h.sreg m.token = 5 ∧ h.isEmptyS m.token = false ∧ t.team? g.team = some u ∧ u.bar m.obj = o))) ∧
  ∀ (s : State) (k : Nat) (g : Group) (m : Monitor), s.group? k = some g → g.mon = some m → s.lineUp g.ctx = true →
    exec (.monitorEnd k) s = .next s ∧
      (m.cause = none → m.timeout ≠ 0 → Gives (.monitorTimeout k) s fun t => ∃ h, t.group? k = some h ∧
        h.mon = some { m with cause := some 5 } ∧ h.sreg m.token = g.sreg m.token ∧ h.isEmptyS m.token = g.isEmptyS m.token)

/-- `kick`, `gth`, `cpyred` and `cpyt` complete: they put their requests, as captured at issue, into the queue of their core and count them
(R180, R181, R184 to R187, R190). -/
def Obligations.EngineRequests : Prop :=
  (∀ (s : State) (i : Instr) (cls : Nat) (a : BitVec 7) (offs : List Nat), engineRow s.g i = some (cls, a, offs) → s.g.readyS a →
    s.noAtoms → s.g.count (engClass cls) + offs.length ≤ 63 →
    (s.engs.filter fun e => e.core == s.g.core && e.cls == cls).length + offs.length ≤ engRoom cls →
    (∀ off ∈ offs, s.tm.requestCheck cls off = .ok) →
    Completes i s (s.g.pc + 4) { counters := true } fun t =>
      t.engs = s.engs ++ (offs.zip (rangeFrom s.fresh offs.length)).map (fun p => s.capture cls p.1 p.2) ∧
        t.g.count (engClass cls) = s.g.count (engClass cls) + offs.length) ∧
  (∀ (s : State) (d a : BitVec 7) (ea ed : Bool) (lit tok : Word), s.g.sreg d.toNat = tok → s.g.readyS a 2 → s.g.readyS d →
    s.noAtoms → s.g.count 2 < 63 → (s.engs.filter fun e => e.core == s.g.core && e.cls == 0).length < 64 →
    let sp := tok.toNat / 2 ^ 17 * 16
    let bar := tok.toNat / 4 % 2 ^ 15 * 16
    sp + lit.toNat ≤ s.tm.w → (if tok.getLsbD 1 then bar = 0 else bar + 16 ≤ s.tm.w) →
    Completes (.cpyt d a ea ed lit) s (s.g.pc + 8) { counters := true } fun t =>
      ∃ e : EngReq, t.engs = s.engs ++ [e] ∧ e.cls = 0 ∧ e.g = s.g.key ∧ e.team = s.tm.key ∧ e.ctx = s.g.ctx ∧ e.core = s.g.core ∧
        e.rows = 1 ∧ e.rowlen = lit.toNat ∧ e.arrive = false ∧ e.running = false ∧
        e.bar = (if tok.getLsbD 1 then none else some bar) ∧ e.srcsp = tok.getLsbD 0 ∧ e.dstsp = !tok.getLsbD 0 ∧
        (if tok.getLsbD 0 then e.src.toNat = sp ∧ e.dst = s.g.spair a.toNat else e.dst.toNat = sp ∧ e.src = s.g.spair a.toNat) ∧
        t.g.count 2 = s.g.count 2 + 1)

/-- The ring instructions complete: `rsub.ld` and `rsub.st` take the lowest free handle and make their ring active and free; `rput`
and `rrel` move one slot; `rcancel` makes the ring inactive and ends its subscription (R193 to R196). -/
def Obligations.Rings : Prop :=
  (∀ (s : State) (store : Bool) (d a : BitVec 7) (ea : Bool) (ro qo : Word) (pa h : Nat) (e : TlbEntry), s.g.sreg a.toNat = ro →
    s.g.sreg (a.toNat + 1) = qo → s.g.readyS a 2 → s.g.openS d → s.noAtoms → s.objAt ro 16 → s.objAt qo 32 →
    let r := s.tm.ring ro.toNat
    let q := s.tm.request qo.toNat
    let ss := if store then q.sstride else q.dstride
    r.bad = false → q.subBad ss = false → r.slotOff + r.nslot * (128 * r.slotsz) ≤ s.tm.w → r.barOff + 16 * r.nslot ≤ s.tm.w →
    r.active = false → (q.rows - 1 : Nat) * ss + q.rowlen ≤ (128 * r.slotsz : Nat) →
    s.reaches (if store then .write else .read) 1 (BitVec.ofNat 64 (if store then q.dst else q.src)) pa e → inHbm pa = true →
    h < 8 → (∀ b ∈ s.subs, b.team = s.tm.key → b.handle ≠ h) → (∀ j, j < h → ∃ b ∈ s.subs, b.team = s.tm.key ∧ b.handle = j) →
    (s.subs.filter (·.stack == pa / Config.stackSlot)).length < 64 →
    Completes (if store then .rsubSt d a ea else .rsubLd d a ea) s (s.g.pc + 4)
      { sregs := [d.toNat], win := [(ro.toNat + 12, 4)], anyHandle := true } fun t =>
      t.g.sreg d.toNat = BitVec.ofNat 32 (16 * h) ∧
        t.tm.ring ro.toNat = { r with handle := h, kind := store, active := true, take := 0, put := 0, free := r.nslot } ∧
        ∃ b : Sub, t.subs = s.subs ++ [b] ∧ b.team = s.tm.key ∧ b.handle = h ∧ b.g = s.g.key ∧ b.ring = ro.toNat ∧ b.store = store ∧
          b.rows = q.rows ∧ b.rowlen = q.rowlen ∧ b.limited = decide (q.aux / 65536 ≠ 0)) ∧
  (∀ (s : State) (i : Instr) (a : BitVec 7) (r' : Ring), ringRow (s.tm.ring (s.g.sreg a.toNat).toNat) i = some (a, true, r') →
    s.g.readyS a → s.noAtoms → s.objAt (s.g.sreg a.toNat) 16 → (s.tm.ring (s.g.sreg a.toNat).toNat).nslot ≠ 0 → r'.free < 256 →
    Completes i s (s.g.pc + 4) { win := [((s.g.sreg a.toNat).toNat + 12, 4)], anyHandle := true } fun t =>
      t.tm.ring (s.g.sreg a.toNat).toNat = r' ∧ t.subs = s.subs) ∧
  (∀ (s : State) (a : BitVec 7) (ea : Bool), s.tm.live = true → s.g.readyS a → s.noAtoms → s.objAt (s.g.sreg a.toNat) 16 →
    (s.tm.ring (s.g.sreg a.toNat).toNat).active = true → s.fab = [] →
    Completes (.rcancel a ea) s (s.g.pc + 4) { win := [((s.g.sreg a.toNat).toNat + 12, 4)], anyHandle := true } fun t =>
      (t.tm.ring (s.g.sreg a.toNat).toNat).active = false ∧
        ∀ b, (s.subs.find? fun b => b.team == s.tm.key && b.ring == (s.g.sreg a.toNat).toNat) = some b →
          ∀ c ∈ t.subs, ¬ (c.team = b.team ∧ c.handle = b.handle))

/-- Handle instructions complete: `tdef` defines one from its image, `ttrans` makes a transposed one, `hbnd` and `hbnd.max` read its
bounds and `hbnd.raise` and `hbnd.set` write them (R238, R328, R330). -/
def Obligations.Handles : Prop :=
  (∀ (s : State) (a : BitVec 7) (n : BitVec 5) (ea : Bool), s.g.converged → s.g.readyS a → s.objAt (s.g.sreg a.toNat) 32 →
    let x := s.tileImage (s.g.sreg a.toNat).toNat
    let f := s.g.imageReg x
    imageBad x f = false → (∀ r ∈ (handleOfImage x f).ranges, r.1 + r.2 ≤ s.tm.w) → s.namesHandle s.g.key n.toNat = false →
    Completes (.tdef a n ea) s (s.g.pc + 4) { handles := [n.toNat] } fun t =>
      t.handle n.toNat = { handleOfImage x f with hgen := (s.handle n.toNat).hgen + 1 }) ∧
  (∀ (s : State) (hA hB : BitVec 5), s.g.converged → (s.handle hA.toNat).tag ≠ 0 → (s.handle hB.toNat).tag ≠ 0 →
    s.namesHandle s.g.key hA.toNat = false → s.namesHandle s.g.key hB.toNat = false → s.g.term = 0 →
    Completes (.ttrans hA hB) s (s.g.pc + 4) { handles := [hA.toNat] } fun t =>
      t.handle hA.toNat = { s.handle hB.toNat with
        trans := !(s.handle hB.toNat).trans, hgen := (s.handle hA.toNat).hgen + 1, hb := boundAdd (s.handle hB.toNat).hb 0 }) ∧
  (∀ (s : State) (d : BitVec 7) (n : BitVec 5), s.g.openS d → (s.handle n.toNat).tag ≠ 0 → s.namesHandle s.g.key n.toNat = false →
    (Completes (.hbnd d n) s (s.g.pc + 4) { sregs := [d.toNat] } fun t => t.g.sreg d.toNat = (s.handle n.toNat).hb) ∧
      Completes (.hbndMax d n) s (s.g.pc + 4) { sregs := [d.toNat] } fun t => t.g.sreg d.toNat = (s.handle n.toNat).hm) ∧
  (∀ (s : State) (i : Instr) (a : BitVec 7) (n : Nat) (x : Word), boundWrite s i = some (a, n, x) → s.g.readyS a →
    (s.handle n).tag ≠ 0 → s.namesHandle s.g.key n = false →
    Completes i s (s.g.pc + 4) { handles := [n] } fun t => t.handle n = { s.handle n with hb := x })

/-- `tdef.meas`, `tcvt`, `tscl`, `ldw`, `tld` and `tst` complete: each joins the tile operations in flight with what it names, captured
at issue, and counts on MMA (R328, R332, R334, R335, R341, R349). -/
def Obligations.TileOperations : Prop :=
  (∀ (s : State) (i : Instr) (srcs : List (BitVec 7 × Nat)) (hs : List Nat) (kind : TileKind),
    tileRow s i = some (srcs, hs, true, kind) → s.g.rule = none → s.g.converged → (∀ p ∈ srcs, s.g.readyS p.1 p.2) →
    (∀ n ∈ hs, s.tileUsable n) → s.g.count 3 < 63 →
    Completes i s (s.g.pc + 4) { counters := true } fun t => TileStarted s t kind [] []) ∧
  (∀ (s : State) (st side : Bool) (d a : BitVec 7) (n : BitVec 5) (ea ed : Bool) (p q : List Piece), s.g.rule = none →
    s.g.forced = false → s.g.converged → s.g.readyS a 3 → (side = true → s.g.readyS d 2) →
    (if st then (s.handle n.toNat).tag ≠ 0 else s.tileUsable n.toNat) → s.noAtoms →
    let h := s.handle n.toNat
    s.tileBusy s.g.key (if st then h.ranges else []) (if st then [] else h.ranges) = false → s.g.count 3 < 63 →
    s.rowPieces (if st then .write else .read) (tagBytes h.tag) h.rowBytes 1 (s.g.tileRows a h) = .ok p →
    (if side then s.rowPieces (if st then .write else .read) 16 16 3 [s.g.spair d.toNat] else .ok []) = .ok q →
    Completes (if st then .tst d a side n ea ed else .tld d a side n ea ed) s (s.g.pc + 4) { counters := true } fun t =>
      TileStarted s t (if st then .st h n.toNat (s.g.tileReg h.tag) side else .ld h n.toNat (s.g.tileReg h.tag) side) p q)

/-- Banks are claimed, released and read by their owner (R238, R337, R338, R344). -/
def Obligations.Banks : Prop :=
  (∀ (s : State) (chain : Bool) (n : BitVec 4), s.g.converged → s.chainOk chain →
    Completes (.acq chain n) s (s.g.pc + 4) { scc := true, banks := true } fun t =>
      if (rangeFrom s.myGrove (s.chainLen chain)).all (fun a => s.claimable a n.toNat) = true then
        t.g.scc = true ∧ ∀ a ∈ rangeFrom s.myGrove (s.chainLen chain), (t.bank a n.toNat).owner = some s.g.key ∧
          ((s.bank a n.toNat).owner = none → (t.bank a n.toNat).bnd = 0x7F800000 ∧ (t.bank a n.toNat).isSealed = true ∧
            ((s.bank a n.toNat).lastCtx ≠ s.g.ctx → ∀ k, (t.bank a n.toNat).elem k = 0))
      else t.g.scc = false ∧ ∀ a k, t.bank a k = s.bank a k) ∧
  (∀ (s : State) (chain : Bool) (n : BitVec 4), s.g.converged → s.chainOk chain →
    (∀ a ∈ rangeFrom s.myGrove (s.chainLen chain), s.owns a n.toNat ∧ s.namesBank s.g.key a n.toNat = false) →
    Completes (.rel chain n) s (s.g.pc + 4) { banks := true } fun t =>
      ∀ a ∈ rangeFrom s.myGrove (s.chainLen chain), (t.bank a n.toNat).owner = none ∧ (t.bank a n.toNat).isSealed = true ∧
        (t.bank a n.toNat).paired = false) ∧
  (∀ (s : State) (i : Instr) (srcs : List (BitVec 7)) (n : Nat) (b : Bank), bankWrite s i = some (srcs, n, b) →
    (∀ a ∈ srcs, s.g.readyS a) → s.owns s.myGrove n → s.namesBank s.g.key s.myGrove n = false →
    Completes i s (s.g.pc + 4) { banks := true } fun t => t.bank s.myGrove n = b ∧ ∀ a k, a ≠ s.myGrove ∨ k ≠ n → t.bank a k = s.bank a k)

/-- `tinfo`, `bndrd`, `bndrd.stat`, `mlog.stat`, `rdpmc` and `rdpmc.hi` complete and put the word they read in flight to a scalar
register; a counter of time reads as it then is (R139, R238, R331, R425). -/
def Obligations.WordReads : Prop :=
  (∀ (s : State) (i : Instr) (d : BitVec 7) (n : Nat) (x : Word), handleWord s i = some (d, n, x) → s.g.converged → s.g.openS d →
    (s.handle n).tag ≠ 0 → s.namesHandle s.g.key n = false →
    Completes i s (s.g.pc + 4) { sregs := [d.toNat] } fun t =>
      Delivers s t { scalar := true, d := d.toNat, n := 1, mask := 1, data := [x], tag := none, counted := false }) ∧
  (∀ (s : State) (i : Instr) (d : BitVec 7) (n : Nat) (x : Word), bankWord s i = some (d, n, x) → s.g.openS d →
    s.owns s.myGrove n → s.namesBank s.g.key s.myGrove n = false →
    Completes i s (s.g.pc + 4) { sregs := [d.toNat] } fun t =>
      Delivers s t { scalar := true, d := d.toNat, n := 1, mask := 1, data := [x], tag := none, counted := false }) ∧
  (∀ (s : State) (d n : BitVec 7), s.g.openS d →
    (Completes (.rdpmc d n) s (s.g.pc + 4) { sregs := [d.toNat], latch := true } fun t =>
      ∃ x : DWord, (timedCounter n.toNat = false → x = s.pmc n.toNat) ∧ t.g.pmchi = x.extractLsb' 32 32 ∧
        Delivers s t { scalar := true, d := d.toNat, n := 1, mask := 1, data := [x.extractLsb' 0 32], tag := none, counted := false }) ∧
    Completes (.rdpmcHi d n) s (s.g.pc + 4) { sregs := [d.toNat] } fun t =>
      Delivers s t { scalar := true, d := d.toNat, n := 1, mask := 1, data := [s.g.pmchi], tag := none, counted := false })

/-- `mlog.reissue` of a paired bank, or of one that a condition of R232 refuses, writes its code; otherwise it queues the
re-issue and the group waits for the array (R238). -/
def Obligations.LogReissue : Prop :=
  ∀ (s : State) (d : BitVec 7) (n : BitVec 4), s.g.openS d → s.owns s.myGrove n.toNat →
    s.namesBank s.g.key s.myGrove n.toNat = false →
    let b := s.bank s.myGrove n.toNat
    let code := if b.paired then 0 else s.refusal s.myGrove n.toNat s.g.mode
    (b.paired = true ∨ code ≠ 0 →
      Completes (.mlogReissue d n) s (s.g.pc + 4) { sregs := [d.toNat] } fun t => t.g.sreg d.toNat = BitVec.ofNat 32 code) ∧
    (b.paired = false → code = 0 → ∃ t x, exec (.mlogReissue d n) s = .next t ∧ t.g.pc = s.g.pc ∧ t.g.st = .stalled ∧
      t.g.reason = .mma ∧ (t.array s.myGrove).queue = (s.array s.myGrove).queue ++ [x] ∧ x.kind = .reissue d.toNat ∧
      x.bank = n.toNat ∧ x.wantReissue = true ∧ x.g = s.g.key)

/-- `bclr`, `awr`, `ard`, `mma` and `mmac` complete: their step joins the queue of the array's arbiter and counts on MMA (R339, R343,
R345 to R347); with PAIR, `bclr` claims the partner and says so in SCC (R339). `swpw` completes and exchanges the planes (R342). -/
def Obligations.ArraySteps : Prop :=
  (∀ (s : State) (chain : Bool) (n : BitVec 4) (pair : Bool), s.g.rule = none → s.g.converged → s.chainOk chain → s.g.count 3 < 63 →
    (∀ a ∈ rangeFrom s.myGrove (s.chainLen chain), s.owns a n.toNat ∧ s.namesBank s.g.key a n.toNat = false) →
    Completes (.bclr chain n pair) s (s.g.pc + 4) { counters := true, banks := true, scc := pair } fun t =>
      StepQueued s t s.myGrove (s.chainLen chain) n.toNat .bclr ∧ (pair = true →
        ((s.bank s.myGrove n.toNat).paired = false → t.g.scc = s.pairFree s.myGrove n.toNat) ∧
        (t.g.scc = true → (t.bank s.myGrove n.toNat).paired = true ∧ (t.bank s.myGrove (partnerOf n.toNat)).heldFor = some n.toNat ∧
          (t.bank s.myGrove (partnerOf n.toNat)).owner = none))) ∧
  (∀ (s : State) (n : BitVec 4) (hA : BitVec 5) (r c : BitVec 2) (pair : Bool), s.g.rule = none → s.g.converged → s.g.count 3 < 63 →
    s.tileUsable hA.toNat → s.owns s.myGrove n.toNat → s.namesBank s.g.key s.myGrove n.toNat = false →
    let h := s.handle hA.toNat
    (h.tag = 8 → pair = true ∧ s.pairFree s.myGrove n.toNat = true) → 16 * r.toNat + h.lrows ≤ 64 → 16 * c.toNat + h.lcols ≤ 64 →
    Completes (.awr n hA r c pair) s (s.g.pc + 4) { counters := true, banks := true, scc := pair } fun t =>
      StepQueued s t s.myGrove 1 n.toNat (.awr h hA.toNat (s.g.tileReg h.tag) r.toNat c.toNat)) ∧
  (∀ (s : State) (chain : Bool) (n : BitVec 4) (hA : BitVec 5) (r c : BitVec 2), s.g.rule = none → s.g.converged → s.chainOk chain →
    s.g.count 3 < 63 → s.tileUsable hA.toNat →
    let last := s.myGrove + (s.chainLen chain - 1)
    let h := s.handle hA.toNat
    s.owns last n.toNat → 16 * r.toNat + h.lrows ≤ 64 → 16 * c.toNat + h.lcols ≤ 64 →
    Completes (.ard chain n hA r c) s (s.g.pc + 4) { counters := true } fun t =>
      StepQueued s t last 1 n.toNat (.ard h hA.toNat (s.g.tileReg h.tag) r.toNat c.toNat)) ∧
  (∀ (s : State) (chain : Bool) (n : BitVec 4) (hA : BitVec 5) (r c : BitVec 2) (neg : Bool) (sg : BitVec 3), s.g.rule = none →
    s.g.converged → s.chainOk chain → s.g.count 3 < 63 → s.tileUsable hA.toNat → s.swapping (s.chainLen chain) = false →
    let h := s.handle hA.toNat
    (∀ j, j < s.chainLen chain → s.productCheck chain n.toNat j h .ok r c = .ok) →
    (chain = true → s.chainShape (s.chainLen chain) h = .ok) →
    Completes (if chain then .mmac n hA r c neg sg else .mma n hA r c neg sg) s (s.g.pc + 4) { counters := true } fun t =>
      StepQueued s t s.myGrove (s.chainLen chain) n.toNat
        (.mma h hA.toNat (s.g.tileReg h.tag) r.toNat c.toNat neg sg.toInt chain)) ∧
  (∀ s : State, s.g.converged → s.planesBusy = false →
    Completes .swpw s (s.g.pc + 4) {} fun t =>
      (t.planes s.myGrove (s.g.core % 4)).front = (s.planes s.myGrove (s.g.core % 4)).shadow ∧
        (t.planes s.myGrove (s.g.core % 4)).shadow = (s.planes s.myGrove (s.g.core % 4)).front)

/-- The graft table: `rwload` writes entries from images in memory and raises GRAFT_TABLE, with nothing written, at the first
malformed one; `rwload.def` writes the default set; `rwflush` leaves no entry valid (R364, R365, R366, R372). -/
def Obligations.GraftTable : Prop :=
  (∀ (s : State) (d a : BitVec 7) (n : BitVec 6) (ea ed : Bool) (k : Nat) (pa : Nat → Nat) (e : Nat → TlbEntry),
    (s.g.sreg d.toNat).toNat = k → 0 < k →
    n.toNat + k ≤ 64 → s.g.readyS a 2 → s.g.readyS d → s.noAtoms →
    (∀ i, i < k → s.reaches .read 128 (s.g.spair a.toNat + BitVec.ofNat 64 (128 * i)) (pa i) (e i) ∧ s.eccBad (pa i) 128 = false) →
    let image := fun i => wordsOf (s.bytesFor (groveOf s.g.core) (pa i) 128)
    ((∀ i, i < k → imageReason (image i) = 0) →
      Completes (.rwload d a n ea ed) s (s.g.pc + 4) { context := true } fun t =>
        ∀ e, SMap.get [] t.cx.graft e = (if n.toNat ≤ e ∧ e < n.toNat + k then image (e - n.toNat) else SMap.get [] s.cx.graft e) ∧
          (e < 64 → t.cx.statistic e = if n.toNat ≤ e ∧ e < n.toNat + k then 0 else s.cx.statistic e)) ∧
    ∀ j, j < k → imageReason (image j) ≠ 0 → (∀ i, i < j → imageReason (image i) = 0) → s.g.rule = none → s.g.forced = false →
      ∃ t, exec (.rwload d a n ea ed) s = .next t ∧ t.cx.graft = s.cx.graft ∧
        Faulted s t { code := .graftTable, info := BitVec.ofNat 12 (imageReason (image j) + 16 * j) } s.g.pc) ∧
  (∀ (s : State) (n : BitVec 6), n.toNat ≤ 60 →
    Completes (.rwloadDef n) s (s.g.pc + 4) { context := true } fun t =>
      ∀ e, SMap.get [] t.cx.graft e = (if n.toNat ≤ e ∧ e < n.toNat + 4 then defaultRule (e - n.toNat) else SMap.get [] s.cx.graft e) ∧
        (e < 64 → t.cx.statistic e = if n.toNat ≤ e ∧ e < n.toNat + 4 then 0 else s.cx.statistic e)) ∧
  (∀ s : State, Completes .rwflush s (s.g.pc + 4) { context := true } fun t =>
    t.cx.rules = [] ∧ ∀ e, t.cx.statistic e = s.cx.statistic e ∨ 64 ≤ e)

/-- Trace control and sampling control (R406, R407, R413, R414), and the steps that write samples, tagged records and trace
blocks (R404, R406, R412). -/
def Obligations.TraceAndSampling : Prop :=
  (∀ (s : State) (p : BitVec 7) (k : BitVec 12), s.g.readyS p →
    (s.g.trc.on = false → Completes (.trcmark p k) s (s.g.pc + 4) {} fun t => t.g.trc = s.g.trc) ∧
    (s.g.trc.on = true → s.g.trc.keep = none → s.g.trc.lost = 0 → s.g.trc.syncDue = false → s.g.trc.tnt = [] →
      s.g.trc.block.length ≤ 48 → s.g.trc.sinceSync < 2 ^ (s.cx.trccfg.toNat % 16) → (s.dev.time - s.g.trc.time).toNat ≤ 255 →
      Completes (.trcmark p k) s (s.g.pc + 4) {} fun t =>
        t.g.trc.time = s.dev.time ∧ t.g.trc.block = s.g.trc.block ++ 0x08 ::
          BitVec.ofNat 8 (s.dev.time - s.g.trc.time).toNat :: bytesOfNat 2 k.toNat ++ bytesOfNat 4 (s.g.sreg p.toNat).toNat)) ∧
  (∀ s : State, Completes .trcctlOn s (s.g.pc + 4) {} fun t => t.g.trc.on = true ∧ t.g.trc.time = s.dev.time ∧ t.g.trc.tnt = []) ∧
  (∀ s : State, Completes .trcctlOff s (s.g.pc + 4) {} fun t => t.g.trc.on = false ∧ t.g.trc.tnt = []) ∧
  (∀ s : State, Completes .trcctlSync s (s.g.pc + 4) {} fun t =>
    t.g.trc.on = s.g.trc.on ∧ (s.g.trc.on = true → t.g.trc.time = s.dev.time ∧ t.g.trc.sinceSync = 0)) ∧
  (∀ s : State, s.g.trc.keep = none → s.g.trc.block = [] → (∀ b ∈ (s.core s.g.core).stage, b.g ≠ s.g.key) →
    Completes .trcctlFlush s (s.g.pc + 4) {} fun t => t.g.trc = s.g.trc) ∧
  (∀ s : State, s.g.forced = false → s.g.trc.keep = none → s.g.trc.block ≠ [] → s.cx.trcring ≠ 0 →
    ∃ t, exec .trcctlFlush s = .next t ∧ t.g.pc = s.g.pc ∧ t.g.st = .stalled ∧ t.g.reason = .acquire ∧ t.g.trc.block = [] ∧
      t.blockWaits = true) ∧
  (∀ (s : State) (a : BitVec 7) (ea : Bool), s.g.readyS a → 8 ≤ (s.g.sreg a.toNat).toNat → (s.g.sreg a.toNat).toNat < 16 →
    Completes (.trcctlCfg a ea) s (s.g.pc + 4) { context := true } fun t => t.cx.trccfg = s.g.sreg a.toNat) ∧
  (∀ (s : State) (a : BitVec 7) (ea : Bool), s.g.readyS a → smpctlLegal (s.g.sreg a.toNat) = true →
    Completes (.smplctl a ea) s (s.g.pc + 4) { context := true } fun t => t.cx.smpctl = s.g.sreg a.toNat) ∧
  (∀ s : State, Completes .smplctlOff s (s.g.pc + 4) { context := true } fun t =>
    t.cx.smpctl = s.cx.smpctl &&& 0xFFFFFFFC ∧ t.cx.ens = false ∧ t.cx.ent = false) ∧
  (∀ (s : State) (core slot : Nat), ((s.allCtxs.any fun c => c.ens && !(s.slotGroups core slot c.num).isEmpty) = false →
      exec (.sampleTick core slot) s = .next s) ∧
    ∀ c : Ctx, s.allCtxs = [c] → c.ens = true → s.slotGroups core slot c.num ≠ [] → c.smpring = 0 →
      Gives (.sampleTick core slot) s fun t => t.mem = s.mem ∧ t.groups = s.groups ∧ ∃ c', t.allCtxs = [c'] ∧
        SMap.get 0 c'.pmc (core * 256 + 0x2E) = SMap.get 0 c.pmc (core * 256 + 0x2E) + 1) ∧
  (∀ (s : State) (core slot k : Nat) (g : Group), s.tagDue core slot = true → SMap.get none (s.core core).current slot = some k →
    s.group? k = some g →
    Gives (.sampleTag core slot) s fun t => ∃ x, SMap.get none (t.core core).tagged slot = some x ∧ x.time = s.dev.time ∧
      x.pc = g.lastPc ∧ x.gid = g.gid ∧ x.ctx = g.ctx ∧ x.word = g.lastWord ∧ x.code = g.lastCode ∧ t.groups = s.groups) ∧
  (∀ (s : State) (core slot : Nat) (x : Tagged), SMap.get none (s.core core).tagged slot = some x →
    Gives (.taggedRecord core slot) s fun t => SMap.get none (t.core core).tagged slot = none ∧
      2 ≤ SMap.get 0 (t.core core).countdown slot ∧ SMap.get 0 (t.core core).countdown slot ≤ 257) ∧
  (∀ (s : State) (core : Nat) (b : TraceBlock) (l : List TraceBlock) (c : Ctx), (s.core core).stage = b :: l →
    (s.core core).keepers = [] → s.ctx? b.ctx = some c →
    (s.ringPut c c.trcring.toNat b.image = .full → exec (.traceBlockWrite core) s = .next s) ∧
    (∀ u, s.ringPut c c.trcring.toNat b.image = .written u →
      Gives (.traceBlockWrite core) s fun t => (t.core core).stage = l ∧ t.mem = u.mem) ∧
    (s.ringPut c c.trcring.toNat b.image = .dropped →
      Gives (.traceBlockWrite core) s fun t => (t.core core).stage = l ∧ t.mem = s.mem))

/-- `yield`, `exit`, `cancel` and `tspawn` complete. `yield` makes the group the youngest of its slot and holds it behind the others that
are ready; `exit` ends the group and frees its banks once LD, ST and MMA are 0, and waits before (R248, R250, R262, R263, R338);
`cancel` says in SCC whether the unit existed, and stops a team that has not completed (R253, R293); `tspawn` writes its status and
SCC, and on success the child's TCB (R294, R295). -/
def Obligations.GroupsAndTasks : Prop :=
  (∀ s : State, Gives .yield s fun t => Keeps {} s t ∧ t.g.pc = s.g.pc + 4 ∧ t.g.st = .ready ∧ t.g.wdcount = 0 ∧
    (∀ h ∈ s.groups, h.core = s.g.core → h.slot = s.g.slot → h.age < t.g.age) ∧ t.g.held = s.readyMates ∧
    SMap.get none (t.core s.g.core).current s.g.slot = none) ∧
  (∀ s : State, s.g.live = true → s.g.st ≠ .ended → s.g.mon = none →
    (s.g.count 0 = 0 ∧ s.g.count 1 = 0 ∧ s.g.count 3 = 0 →
      Gives .exit s fun t => t.g.key = s.g.key ∧ t.g.st = .ended ∧ t.g.status = some .done ∧
        ∀ a n, (t.bank a n).owner ≠ some s.g.key) ∧
    (s.g.count 0 ≠ 0 ∨ s.g.count 1 ≠ 0 ∨ s.g.count 3 ≠ 0 →
      Gives .exit s fun t => t.g.st = .stalled ∧ t.g.reason = .waitc ∧ t.g.pc = s.g.pc)) ∧
  (∀ (s : State) (p : BitVec 7) (m : BitVec 5), s.g.live = true → s.keysApart → s.g.readyS p → m.toNat < 5 →
    s.hwHeld s.cx.num = false →
    Gives (.cancel p m) s fun t => t.g.key = s.g.key ∧ t.g.pc = s.g.pc + 4 ∧
      t.g.scc = (s.cancelAct m.toNat (s.g.sreg p.toNat)).1) ∧
  (∀ (s : State) (p : BitVec 7) (x : Word) (u : UnitRec) (m : Team), s.g.live = true → s.focused → s.keysApart → s.g.readyS p →
    s.g.sreg p.toNat = x → s.cx.units.find? (·.slot == some (x.extractLsb' 25 7)) = some u → u.def_.kind = 0 →
    SMap.get none u.ended (x.extractLsb' 5 20).toNat = none → s.hwHeld s.cx.num = false →
    (s.allTeams.find? fun t => t.ctx == s.cx.num && t.unit == u.key && t.idx.toNat == (x.extractLsb' 5 20).toNat) = some m →
    s.teamDone m = false →
    Gives (.cancel p 0) s fun t => t.g.scc = true ∧
      ∀ h ∈ t.groups, h.team = m.key → h.st = .ended ∨ h.st = .frozen ∧ h.cancelReq = true) ∧
  (∀ (s : State) (d a : BitVec 7) (ea : Bool), s.g.readyS a → s.g.openS d → s.poolOf = none →
    Completes (.tspawn d a ea) s (s.g.pc + 4) { sregs := [d.toNat], scc := true } fun t => t.g.sreg d.toNat = 3 ∧ t.g.scc = false) ∧
  (∀ (s : State) (d a : BitVec 7) (ea : Bool) (u : UnitRec), s.g.readyS a → s.g.openS d → s.poolOf = some u →
    (s.g.sreg a.toNat).toNat % 16 = 0 → (s.g.sreg a.toNat).toNat + 64 ≤ s.tm.w → s.tm.eccBad (s.g.sreg a.toNat).toNat 64 = false →
    s.hwHeld s.cx.num = false →
    let img := winNat s.tm.win (s.g.sreg a.toNat).toNat 64
    (tcbMalformed img = true → Completes (.tspawn d a ea) s (s.g.pc + 4) { sregs := [d.toNat], scc := true } fun t =>
      t.g.sreg d.toNat = 2 ∧ t.g.scc = false) ∧
    ∀ w, tcbMalformed img = false → s.hwNat s.cx (u.def_.descVA.toNat + 20) 4 = some w →
      (w % 2 ^ 20 = 0 → Completes (.tspawn d a ea) s (s.g.pc + 4) { sregs := [d.toNat], scc := true } fun t =>
        t.g.sreg d.toNat = 1 ∧ t.g.scc = false) ∧
      ∀ pa pa' da i e0 e, w % 2 ^ 20 ≠ 0 → s.noAtoms → s.released 3 →
        s.spawnAccess (u.def_.fsBase + BitVec.ofNat 64 (4 * (w % 2 ^ 20 - 1))) .read = .ok (pa, e0) →
        readNat s.mem pa 4 % 2 ^ 20 = i → s.spawnAccess (u.def_.tcbBase + BitVec.ofNat 64 (64 * i)) .write = .ok (pa', e) →
        inFdt pa' = false → (∀ j, j < 4 → s.hwAddr s.cx (u.def_.descVA.toNat + 20 + j) .write = some (da + j)) →
        Completes (.tspawn d a ea) s (s.g.pc + 4) { sregs := [d.toNat], scc := true, mem := [(da, 4), (pa', 64)] } fun t =>
          t.g.sreg d.toNat = BitVec.ofNat 32 (i * 4096) ∧ t.g.scc = true ∧
            readBytes t.mem pa' 64 = bytesOfNat 64 (tcbSetStatus img (if 0 < bitsN img 320 16 then 1 else 2)))

/-- Shootdowns: `tlbinv` issues by giving its range to the sequencer, and its group waits (R173); the sequencer's steps advance GEN
(a wrap covers the whole region), drop the entries of the range, and with the last acknowledgement the `tlbinv` has completed and
its group goes on behind it (R41 to R43). A walk whose leaf lets an access pass serves every miss of its page on the die, stamps the
leaf where its GEN is old, and fills the grove TLB and the micro-TLBs of its miss (R24, R25, R39 to R41). -/
def Obligations.Shootdowns : Prop :=
  (∀ (s : State) (addr b : BitVec 7), s.g.priv = true → s.g.readyS addr 2 → s.g.readyS b → s.noAtoms → s.released 3 →
    (s.g.spair addr.toNat).toNat < 2 ^ 54 →
    let start := (s.g.spair addr.toNat).toNat / 65536 * 65536
    let n := (s.g.sreg b.toNat).toNat
    Gives (.tlbinv addr b) s fun t => Keeps {} s t ∧ t.g.pc = s.g.pc ∧ t.g.st = .stalled ∧ t.g.reason = .acquire ∧
      t.g.inProgress = true ∧ ∃ q : Shoot, t.shoots = s.shoots ++ [q] ∧ q.ctx = s.g.ctx ∧ q.g = some s.g.key ∧ q.accepted = false ∧
        if n = 0 then q.lo = 0 ∧ q.hi = 2 ^ 54 else q.lo = start ∧ q.hi = min (start + 65536 * n) (2 ^ 54)) ∧
  (∀ (s : State) (ctx : Nat) (c : Ctx) (q : Shoot), s.ctx? ctx = some c → s.shoots.find? (·.ctx == ctx) = some q → q.accepted = false →
    Gives (.shootdownAccept ctx) s fun t => t.ctx? ctx = some { c with gen := c.gen + 1 } ∧
      ∃ q', t.shoot? ctx = some q' ∧ q'.g = q.g ∧ q'.gen = c.gen + 1 ∧ q'.toInv = c.shootTargets ∧ q'.toAck = c.shootTargets ∧
        if c.gen + 1 = 0 then q'.lo = 0 ∧ q'.hi = 2 ^ 54 else q'.lo = q.lo ∧ q'.hi = q.hi) ∧
  (∀ (s : State) (ctx k : Nat) (q : Shoot), s.shoot? ctx = some q → k ∈ q.toInv → k < 128 →
    Gives (.shootdownInvalidation ctx k) s fun t => SMap.get 0 (t.grove k).gens ctx = q.gen ∧
      (∀ e ∈ (t.grove k).gtlb, e.ctx = ctx → (e.vpage + 1) * e.size ≤ q.lo ∨ q.hi ≤ e.vpage * e.size) ∧
      (∀ j, j < 4 → ∀ e ∈ (t.core (4 * k + j)).utlb, e.ctx = ctx → (e.vpage + 1) * e.size ≤ q.lo ∨ q.hi ≤ e.vpage * e.size) ∧
      ∃ q', t.shoot? ctx = some q' ∧ q'.toInv = q.toInv.erase k ∧ q'.toAck = q.toAck) ∧
  (∀ (s : State) (ctx k : Nat) (q : Shoot), s.shoot? ctx = some q → k ∈ q.toAck → k ∉ q.toInv → s.drained ctx = true →
    (q.toAck.erase k ≠ [] → Gives (.shootdownAck ctx k) s fun t =>
      ∃ q', t.shoot? ctx = some q' ∧ q'.toAck = q.toAck.erase k ∧ q'.toInv = q.toInv) ∧
    (q.toAck.erase k = [] → s.shoots = [q] → q.g = some s.g.key → s.g.live = true → s.g.inProgress = true →
      128 ≤ k → Gives (.shootdownAck ctx k) s fun t => t.shoots = [] ∧ t.g.pc = s.g.pc + 4 ∧ t.g.inProgress = false)) ∧
  (∀ (s : State) (i : Nat) (q : WalkReq) (c : Ctx) (ea level : Nat) (e : DWord), s.walks[i]? = some q → i < 32 →
    (s.walks.filter fun x => x.die == q.die && x.samePage q) = [q] → s.ctx? q.ctx = some c →
    walkTable (s.walkRead q.die c) c q.va.toNat = .leaf ea level e → pteHpend e = false → pteHown e = false → inFdt ea = false →
    (∃ k ∈ q.kinds, ∃ pa x, checkBits (tlbOfLeaf c q.va.toNat level e) q.va 0 k (fun _ _ => 0) = .hit pa x) →
    Gives (.tableWalk i) s fun t => t.walks = (s.walks.filter fun x => !(x.die == q.die && x.samePage q)) ∧
      (pteGen e ≠ c.gen → readD t.mem ea = pteStamp e c.gen ∧ ∀ a, a < ea ∨ ea + 8 ≤ a → readByte t.mem a = readByte s.mem a) ∧
      (pteGen e = c.gen → t.mem = s.mem) ∧
      (q.root = none → SMap.get 0 (s.grove (groveOf q.core)).gens c.num = c.gen →
        tlbOfLeaf c q.va.toNat level e ∈ (t.grove (groveOf q.core)).gtlb ∧
          ∀ k ∈ q.micro, tlbOfLeaf c q.va.toNat level e ∈ (t.core k).utlb))

/-- Submissions: SQKICK (R429), what every command answers (R430, R433, R434), and what JOB, PREEMPT, RESTORE, GRANT, RECLAIM,
CREATE, TEARDOWN and ATTEST leave when they are accepted (R36, R48, R256, R392, R396, R431, R432, R438, R443, R497, R500). -/
def Obligations.Commands : Prop :=
  (∀ (s : State) (tail : Word), exec (.sqkick tail) s =
    .next { s with dev := { s.dev with sqtail := if (tail - s.dev.sqhead).toNat ≤ s.dev.sqsize.toNat then tail else s.dev.sqtail } }) ∧
  (∀ (s : State) (e : SqEntry) (err : JError) (job : Nat), s.journalApart → Taken s (s.answer e err job) ∧ (s.answer e err job).dev.jseq = s.dev.jseq + 1 ∧
    readBytes (s.answer e err job).mem (s.dev.jbase.toNat + 64 * (s.dev.jseq % 65536)) 64 =
      ({ event := if err = .none then .accepted else .refused, ctx := e.ctx, error := err, obj := job * 2 ^ 32, tag := e.tag } :
        JEntry).bytes s.dev.jseq s.dev.time ∧
    ∀ b, (b < s.dev.jbase.toNat + 64 * (s.dev.jseq % 65536) ∨ s.dev.jbase.toNat + 64 * (s.dev.jseq % 65536) + 64 ≤ b) →
      readByte (s.answer e err job).mem b = readByte s.mem b) ∧
  (∀ (s : State) (i : Instr) (e : SqEntry) (kind used : Nat), commandRow i = some (kind, used) → s.sqHead = some e → e.kind = kind →
    (e.wellFormed used = false → exec i s = .next (s.answer e .badEntry)) ∧
    (e.wellFormed used = true → s.ctx? e.ctx = none → exec i s = .next (s.answer e .badContext))) ∧
  (∀ (s : State) (e : SqEntry), s.sqHead = some e →
    (e.kind = 0 ∨ 9 < e.kind → exec .job s = .next (s.answer e .badEntry)) ∧
    (s.hwHeld e.ctx = false → s.asks e 1 1 → s.ctx? e.ctx = none → exec .job s = .next (s.answer e .badContext)) ∧
    (∀ c, s.hwHeld e.ctx = false → s.asks e 1 1 → s.ctx? e.ctx = some c → s.readJob c (e.arg 0) = none →
      exec .job s = .next (s.answer e .badRecord)) ∧
    ∀ c phases, s.hwHeld e.ctx = false → s.asks e 1 1 → s.ctx? e.ctx = some c → s.readJob c (e.arg 0) = some phases →
      ∃ u : State, exec .job s = .next (u.settle e.ctx) ∧ Taken s u ∧
        u.dev.jseq = s.dev.jseq + 1 + ((s.unitsOf c s.dev.jseq phases).filter (·.2 != .none)).length ∧
        ∃ c', u.ctx? e.ctx = some c' ∧ c'.units = c.units ++ (s.unitsOf c s.dev.jseq phases).map (fun (x : UnitRec × JError) => x.1) ∧
          ∃ j, c'.jobs = c.jobs ++ [j] ∧ j.seq = s.dev.jseq ∧ j.tag = e.tag ∧ j.priv = e.priv ∧ j.phases = phases.length ∧ j.phase = 0) ∧
  (∀ (s : State) (e : SqEntry) (c : Ctx), s.asks e 2 2 → s.ctx? e.ctx = some c →
    (e.arg 1 < e.arg 0 ∨ e.arg 1 < 10 ∨ 1000000 < e.arg 1 → exec .preempt s = .next (s.answer e .badTimes)) ∧
    (e.arg 0 ≤ e.arg 1 → 10 ≤ e.arg 1 → e.arg 1 ≤ 1000000 → c.preempt ≠ .none → exec .preempt s = .next (s.answer e .busy)) ∧
    (e.arg 0 ≤ e.arg 1 → 10 ≤ e.arg 1 → e.arg 1 ≤ 1000000 → c.preempt = .none →
      Gives .preempt s fun t => Taken s t ∧ ∃ c', t.ctx? e.ctx = some c' ∧ c'.tag = e.tag ∧
        if s.teamsOf e.ctx = [] then c'.preempt = .none ∧ t.dev.jseq = s.dev.jseq + 3
        else c'.preempt = .draining (e.arg 0) (e.arg 1) ∧ t.dev.jseq = s.dev.jseq + 2)) ∧
  (∀ (s : State) (e : SqEntry) (c : Ctx), s.asks e 3 0 → s.ctx? e.ctx = some c → c.preempt = .saved →
    let u := (s.answer e .none).modCtx e.ctx fun c => { c with preempt := .restoring, tag := e.tag }
    Taken s u ∧ (u.restoreCtx e.ctx = none → exec .restore s = .next u) ∧ ∀ v, u.restoreCtx e.ctx = some v → exec .restore s = .next v) ∧
  (∀ (s : State) (e : SqEntry) (c : Ctx), s.asks e 5 2 → s.ctx? e.ctx = some c → e.arg 1 ≠ 0 → e.arg 0 < 2 ^ 36 →
    framesInHbm (e.arg 0) (e.arg 1) = true → (∀ i, i < e.arg 1 → s.frameState (e.arg 0 + i) = 0 ∧ s.frameCtx (e.arg 0 + i) = 0 ∧
      s.ordinary (e.arg 0 + i)) → s.journalApart → 0 < e.ctx → e.ctx < 65536 →
    Gives .grant s fun t => Taken s t ∧
      (∀ i, i < e.arg 1 → t.frameCtx (e.arg 0 + i) = e.ctx ∧ t.frameState (e.arg 0 + i) = 0 ∧
        t.frameLink (e.arg 0 + i) = (if i + 1 < e.arg 1 then e.arg 0 + i + 1 else (c.head (stackOf (e.arg 0))).toNat) ∧
        ∀ b, b < 65536 → readByte t.mem ((e.arg 0 + i) * 65536 + b) = 0) ∧
      ∃ c', t.ctx? e.ctx = some c' ∧ c'.head (stackOf (e.arg 0)) = BitVec.ofNat 32 (e.arg 0) ∧
        c'.listLen (stackOf (e.arg 0)) = c.listLen (stackOf (e.arg 0)) + BitVec.ofNat 32 (e.arg 1)) ∧
  (∀ (s : State) (e : SqEntry) (c : Ctx), s.asks e 6 2 → s.ctx? e.ctx = some c → e.arg 1 ≠ 0 → e.arg 0 < 2 ^ 36 →
    framesInHbm (e.arg 0) (e.arg 1) = true → (∀ i, i < e.arg 1 → s.frameState (e.arg 0 + i) = 0 ∧ s.frameCtx (e.arg 0 + i) = e.ctx) →
    s.journalApart → s.canShoot e.ctx = true → Gives .reclaim s fun t => Taken s t ∧ ∀ i, i < e.arg 1 → t.frameCtx (e.arg 0 + i) = 0) ∧
  (∀ (s : State) (e : SqEntry), s.asks e 7 4 → e.ctx ≠ 0 → s.ctx? e.ctx = none → e.arg 0 % 65536 = 0 → inHbm (e.arg 0) = true →
    reachLegal (e.arg 1) (e.arg 2) = true → e.arg 3 < 2 ^ 36 →
    s.partCores { live := true, num := e.ctx, partGroves := BitVec.ofNat 32 (e.arg 3), partDies := BitVec.ofNat 4 (e.arg 3 / 2 ^ 32)
                  partAll := e.arg 3 == 0 } ≠ [] → s.journalApart →
    Gives .create s fun t => Taken s t ∧
      (∃ a, t.ctx? e.ctx = some
        { live := true, num := e.ctx, base := BitVec.ofNat 36 (e.arg 0 / 65536), reach := BitVec.ofNat 32 (e.arg 1)
          jobTag := BitVec.ofNat 16 (e.arg 2), partGroves := BitVec.ofNat 32 (e.arg 3), partDies := BitVec.ofNat 4 (e.arg 3 / 2 ^ 32)
          partAll := e.arg 3 == 0, area := a }) ∧
      (s.frameFree (e.arg 0 / 65536) = true → e.ctx < 65536 →
        t.frameState (e.arg 0 / 65536) = 2 ∧ t.frameCtx (e.arg 0 / 65536) = e.ctx)) ∧
  (∀ (s : State) (e : SqEntry) (c : Ctx), s.asks e 8 0 → s.ctx? e.ctx = some c → s.handoverBusy e.ctx = false →
    s.skids e.ctx = false → s.canShoot e.ctx = true → s.journalApart → (∀ f, f < Config.fdtBytes / 16 → s.frameCtx f = e.ctx → s.ordinary f) → e.ctx ≠ 0 →
    s.tops = [] → s.pend = [] → (∀ p ∈ s.groves, p.2.svcq = []) →
    Gives .teardown s fun t => Taken s t ∧ t.ctx? e.ctx = none ∧
      ∀ f, f < Config.fdtBytes / 16 → t.frameCtx f = e.ctx → t.frameState f = 4) ∧
  (∀ (s : State) (e : SqEntry), s.asks e 9 4 → s.journalApart → inFdt s.reportPa = false →
    Gives .attest s fun t => Taken s t ∧ t.dev.jseq = s.dev.jseq + 2 ∧ t.dev.report = some s.reportPa ∧
      readBytes t.mem s.reportPa 4 = bytesOfNat 4 0x4B584154 ∧
      ∀ i, i < 4 → readBytes t.mem (s.reportPa + 24 + 8 * i) 8 = bytesOfNat 8 (e.arg i))

/-- Commands of a debugger: ATTACH, HALT, RESUME, FREEZE, THAW, STEP, SETBP, ICINV, DUMP and WRREG (R402, R416 to R424). -/
def Obligations.DebugCommands : Prop :=
  (∀ (s : State) (e : SqEntry) (c : Ctx), s.debugs e 0x40 [0xF, all64, all64, 0] c →
    Gives .attach s fun t => Taken s t ∧ t.ctx? e.ctx = some { c with
      attach := (e.arg 0).testBit 8, bkact := (e.arg 0).testBit 9
      smpring := if (e.arg 0).testBit 10 then BitVec.ofNat 64 (e.arg 1) else c.smpring
      trcring := if (e.arg 0).testBit 11 then BitVec.ofNat 64 (e.arg 2) else c.trcring }) ∧
  (∀ (s : State) (e : SqEntry) (c : Ctx), s.debugs e 0x41 [0, 0, 0, 0] c →
    (c.debugHalt = true → exec .halt s = .next (s.answer e .none)) ∧
    (c.debugHalt = false → Gives .halt s fun t => t.dev = s.dev ∧ t.ctx? e.ctx = some { c with cut := some 3 } ∧ t.groups = s.groups)) ∧
  (∀ (s : State) (e : SqEntry) (c : Ctx), s.debugs e 0x42 [0, 0, 0, 0] c →
    (c.debugHalt = false → exec .resume s = .next (s.answer e .notHalted)) ∧
    (c.debugHalt = true → c.halt = .lowered → c.faults = [] → c.preempt = .none → s.keysApart →
      Gives .resume s fun t => Taken s t ∧ (∃ c', t.ctx? e.ctx = some c' ∧ c'.debugHalt = false) ∧
        ∀ g ∈ s.groupsOf e.ctx, g.live = true → g.st = .stopped →
          ∃ h, t.group? g.key = some h ∧ h.st = g.stLeft.released ∧ h.bpSkip = true)) ∧
  (∀ (s : State) (e : SqEntry) (c : Ctx), s.debugs e 0x43 [1, all32, 0, 0] c →
    (s.namedGroups e = [] → exec .freeze s = .next (s.answer e .noGroup)) ∧
    (s.namedGroups e ≠ [] → s.keysApart → s.shoots = [] →
      Gives .freeze s fun t => Taken s t ∧ ∀ g ∈ s.namedGroups e, ∃ h, t.group? g.key = some h ∧ h.st = .frozen ∧ h.pc = g.pc)) ∧
  (∀ (s : State) (e : SqEntry) (c : Ctx), s.debugs e 0x44 [1, all32, 0, 0] c → s.keysApart → c.halt = .lowered → c.debugHalt = false →
    c.preempt = .none → (∀ g ∈ s.namedGroups e, g.cancelReq = false) →
    Gives .thaw s fun t => Taken s t ∧ ∀ g ∈ s.namedGroups e, g.st = .frozen →
      ∃ h, t.group? g.key = some h ∧ h.st = g.stLeft.released ∧ h.bpSkip = true) ∧
  (∀ (s : State) (e : SqEntry) (c : Ctx), s.debugs e 0x45 [0, all32, 0, 0] c → s.dev.stepKey = none →
    (s.groupOfGid e.ctx (e.arg 1) = none → exec .step s = .next (s.answer e .noGroup)) ∧
    ∀ g, s.groupOfGid e.ctx (e.arg 1) = some g → c.halt = .lowered → c.preempt = .none → c.cut = none →
      s.groupSkids g.key = false →
      (g.st ≠ .frozen → g.st ≠ .stopped → exec .step s = .next (s.answer e .notHalted)) ∧
      (g.st = .frozen ∨ g.st = .stopped ∧ c.debugHalt = true →
        (g.stLeft = .stalled ∨ g.stLeft = .blocked ∨ g.stLeft = .loading → exec .step s = .next (s.answer e .waiting)) ∧
        (g.stLeft ≠ .stalled → g.stLeft ≠ .blocked → g.stLeft ≠ .loading → s.keysApart →
          Gives .step s fun t => t.dev.sqhead = s.dev.sqhead ∧ t.dev.stepKey = some g.key ∧
            ∃ h, t.group? g.key = some h ∧ h.st = .ready ∧ h.stepping = true ∧ h.bpSkip = true))) ∧
  (∀ (s : State) (e : SqEntry) (c : Ctx) (g : Group), s.debugs e 0x45 [0, all32, 0, 0] c → s.dev.stepKey = some g.key →
    s.group? g.key = some g → g.stands → g.stepping = false → c.halt = .lowered →
    Gives .step s fun t => Taken s t ∧ t.dev.stepKey = none ∧ t.mem = (s.answer e .none).mem) ∧
  (∀ (s : State) (e : SqEntry) (c : Ctx), s.debugs e 0x46 [0x1F, all64 - 3, 0, 0] c →
    Gives .setbp s fun t => Taken s t ∧ t.ctx? e.ctx = some { c with
      bps := SMap.set {} c.bps (e.arg 0 / 256 % 8)
        { va := BitVec.ofNat 64 (e.arg 1), en := (e.arg 0).testBit 11, act := (e.arg 0).testBit 12 } }) ∧
  (∀ (s : State) (e : SqEntry) (c : Ctx), s.debugs e 0x47 [0, all64, all64, 0] c →
    Gives .debugIcinv s fun t => Taken s t ∧ ∀ k, k < 512 → s.resident e.ctx k = true →
      ∀ l ∈ s.hwLines c (e.arg 1) (min (e.arg 2) (2 ^ 54 - e.arg 1)), ∀ x ∈ (t.core k).icache, x.line ≠ l) ∧
  (∀ (s : State) (e : SqEntry) (c : Ctx) (f : Nat), s.debugs e 0x48 [3, all32, all64, all64] c → e.arg 0 / 256 % 4 = 0 →
    e.arg 1 = 0 → c.saved = none → s.hwHeld e.ctx = false → c.area = some f → inFdt ((f + 4) * 65536) = false →
    apart ((f + 4) * 65536) 256 s.dev.jbase.toNat 0x400000 →
    ((∀ g ∈ s.groupsOf e.ctx, g.stands) →
      Gives .dump s fun t => Taken s t ∧ readBytes t.mem ((f + 4) * 65536) 4 = bytesOfNat 4 0x4B584431 ∧
        (readByte t.mem ((f + 4) * 65536 + 16)).getLsbD 2 = true ∧
        ∀ g ∈ s.groupsOf e.ctx, ∃ h, t.group? g.key = some h ∧ h.st = g.st) ∧
    ((∃ g ∈ s.groupsOf e.ctx, ¬ g.stands) → exec .dump s = .next (s.answer e .busy))) ∧
  (∀ (s : State) (e : SqEntry) (c : Ctx) (g : Group), s.debugs e 0x49 [0x3FFF, all64, all32, 0] c →
    s.groupOfGid e.ctx (e.arg 1 % 2 ^ 32) = some g → s.keysApart →
    let space := e.arg 0 / 256 % 4
    let code := e.arg 0 / 2 ^ 10 % 2 ^ 12
    let x : Word := BitVec.ofNat 32 (e.arg 2)
    (g.st = .stopped ∨ g.st = .frozen) → g.wrregOk space code = true →
      (space = 0 → code < 96 → Gives .wrreg s fun t => Taken s t ∧ ∃ h, t.group? g.key = some h ∧ ∀ l, l < 32 →
        h.lane code l = if laneBit (BitVec.ofNat 32 (e.arg 1 / 2 ^ 32)) l then x else g.lane code l) ∧
      (space = 1 → code < 64 → e.arg 1 < 2 ^ 32 → Gives .wrreg s fun t => Taken s t ∧ ∃ h, t.group? g.key = some h ∧ h.sreg code = x ∧
        ∀ n, n ≠ code → h.sreg n = g.sreg n) ∧
      (space = 2 → code = 0x002 → e.arg 1 < 2 ^ 32 → Gives .wrreg s fun t => Taken s t ∧ ∃ h, t.group? g.key = some h ∧ h.savedexec = x))

/-- What the host and the board reach of the device: registers (R73, R427, R428, R447), handover commands (R94 to R97), the memory
window (R33, R91, R427), the sideband (R448), power (R444, R447, R448) and the cold reset (R277, R433, R440, R442). A valid handover
command puts its leaves in RELEASING or ACQUIRING first; once its shootdown has completed and its lines are at rest, they become HOST
or DEVICE and it ends (R97). -/
def Obligations.DeviceRegisters : Prop :=
  (∀ (s : State) (v : DWord),
    exec (.registerWrite false 0x10 v) s =
      .next { s with dev := { s.dev with sqbase := if v.toNat % 64 = 0 then v else s.dev.sqbase } } ∧
    exec (.registerWrite false 0x18 v) s = .next { s with dev := { s.dev with
      sqsize := if v.toNat ∈ [16, 32, 64, 128, 256, 512, 1024, 2048, 4096] ∧ s.dev.sqhead = s.dev.sqtail then v.extractLsb' 0 32
        else s.dev.sqsize } } ∧
    exec (.registerWrite false 0x38 v) s =
      .next { s with dev := { s.dev with winbase := if v.toNat % 2 ^ 30 = 0 then v else s.dev.winbase } } ∧
    exec (.registerWrite false 0x40 v) s =
      .next { s with dev := { s.dev with pkgid := if s.allCtxs = [] then v.extractLsb' 0 13 else s.dev.pkgid } } ∧
    (∀ d, d < 4 → exec (.registerWrite false (BitVec.ofNat 24 (0x100 + 8 * d)) v) s = exec (.l2quotaWrite (BitVec.ofNat 2 d) v) s) ∧
    exec (.registerWrite false 0x200 v) s = exec (.powercapWrite v) s ∧
    (∀ i, i < 32 → exec (.registerWrite false (BitVec.ofNat 24 (0x1018 + 64 * i)) v) s =
      exec (.budgetWrite (BitVec.ofNat 5 i) (v.extractLsb' 0 32)) s) ∧
    (∀ off : BitVec 24, off.toNat ∉ [0x10, 0x18, 0x38, 0x40, 0x200] → ¬ (0x100 ≤ off.toNat ∧ off.toNat < 0x120 ∧ off.toNat % 8 = 0) →
      ¬ (0x1000 ≤ off.toNat ∧ off.toNat < 0x1800 ∧ off.toNat % 64 = 0x18) → exec (.registerWrite false off v) s = .next s) ∧
    exec (.registerWrite true 0 v) s = exec (.sqkick (v.extractLsb' 0 32)) s ∧
    ∀ n, n < 64 → let at_ := fun o => BitVec.ofNat 24 (0x1000 + 32 * n + o)
      ((s.hoSlot n).code = 1 → ∀ o, o < 32 → exec (.registerWrite true (at_ o) v) s = .next s) ∧
      ((s.hoSlot n).code ≠ 1 →
        (Gives (.registerWrite true (at_ 0) v) s fun t => t.hoSlot n = { s.hoSlot n with addr := v &&& 0xFFFFFFFFFFFF0000 }) ∧
        (Gives (.registerWrite true (at_ 8) v) s fun t => t.hoSlot n = { s.hoSlot n with ctl := v &&& 0xFFFF0000FF01FFFF }) ∧
        Gives (.registerWrite true (at_ 0x18) v) s fun t =>
          t.hoSlot n = { s.hoSlot n with code := 1, failidx := 0, order := s.dev.hoOrder } ∧ t.dev.hoOrder = s.dev.hoOrder + 1)) ∧
  (∀ (s : State) (d : BitVec 2) (v : DWord), Gives (.l2quotaWrite d v) s fun t => t = { s with dies := t.dies } ∧
    (∀ k, k ≠ d.toNat → t.die k = s.die k) ∧ t.die d.toNat =
      if quotaLegal (v &&& 0x1F1F1F1F1F1F1F1F) then
        { s.die d.toNat with l2quota := v &&& 0x1F1F1F1F1F1F1F1F, quotaRefused := false }
      else { s.die d.toNat with quotaRefused := true }) ∧
  (∀ (s : State) (v : DWord), Gives (.powercapWrite v) s fun t => t.dev.powercap = v &&& 0xFFFF ∧ ∀ i, i < 32 →
    (t.island i).hostBudget = (s.island i).hostBudget ∧ (t.island i).budget =
      if v &&& 0xFFFF = 0 ∨ 6 ≤ i % 8 then (s.island i).hostBudget
      else BitVec.ofNat 32 (min (s.island i).hostBudget.toNat ((100 * (v &&& 0xFFFF).toNat - s.measuredRest) / 24))) ∧
  (∀ (s : State) (i : BitVec 5) (v : Word), Gives (.budgetWrite i v) s fun t => (∀ k, k ≠ i.toNat → t.island k = s.island k) ∧
    (t.island i.toNat).hostBudget.toNat = min v.toNat (Config.ceil i.toNat).toNat ∧
    (s.dev.powercap = 0 → (t.island i.toNat).budget = (t.island i.toNat).hostBudget)) ∧
  (∀ (s : State) (off : Nat) (wide : Bool),
    let n := if wide then 8 else 4
    let pa := s.dev.winbase.toNat + off
    (2 ^ 40 < off + n → ∀ w, exec (.hostWindowAccess off wide w) s = .next s) ∧
    (off + n ≤ 2 ^ 40 → assigned pa = false → ∀ w, exec (.hostWindowAccess off wide w) s = .fault (.unassignedPhysical pa)) ∧
    (off + n ≤ 2 ^ 40 → assigned pa = true → assigned (pa + n - 1) = true →
      (Gives (.hostWindowAccess off wide none) s fun t => t.mem = s.mem ∧ t.dev.hostRead.toNat = readNat s.mem pa n) ∧
      ∀ x : DWord, Gives (.hostWindowAccess off wide (some x)) s fun t =>
        (inFdt pa = true → t.mem = s.mem) ∧ (inFdt pa = false → readBytes t.mem pa n = bytesOfNat n x.toNat ∧
          ∀ b, b < pa ∨ pa + n ≤ b → readByte t.mem b = readByte s.mem b))) ∧
  (∀ (s : State) (off : BitVec 24), exec (.i2cRead off) s = .next { s with dev :=
    if off = 0 then { s.dev with i2c := some s.dev.stat, i2cNack := false }
    else if 0x1000 ≤ off.toNat ∧ off.toNat < 0x1800 ∧ off.toNat % 4 = 0 then
      { s.dev with i2c := some (s.islandWord ((off.toNat - 0x1000) / 64) (off.toNat % 64)), i2cNack := false }
    else { s.dev with i2c := none, i2cNack := true } }) ∧
  (∀ (s : State) (off : BitVec 24) (v : Word), exec (.i2cWrite off v) s = .next { s with dev := { s.dev with i2c := none, i2cNack := true } }) ∧
  (∀ s : State, (Gives .throttleAssert s fun t => t.dev.throttle = true ∧ ∀ i ∈ groveIslands, (t.island i).step = 6) ∧
    exec .throttleRelease s = .next { s with dev := { s.dev with throttle := false } } ∧
    (Gives .packageCurrentLimit s fun t => ∀ i ∈ groveIslands, (t.island i).step = 6) ∧
    ∀ (i : BitVec 5) (x : Word), Gives (.thermalLimit i x) s fun t => t.island i.toNat = { s.island i.toNat with
      temp := x, hot := decide (110 * 16 < x.toInt), step := if 110 * 16 < x.toInt then 6 else (s.island i.toNat).step
      since := if 110 * 16 < x.toInt then 0 else (s.island i.toNat).since }) ∧
  (∀ (s : State) (jframe : BitVec 36) (failStep : BitVec 8) (bad : List Nat),
    (framesInHbm jframe.toNat reservedFrames = false ∨ 4 < failStep.toNat → exec (.coldReset jframe failStep bad) s = .next s) ∧
    (framesInHbm jframe.toNat reservedFrames = true → failStep ≠ 0 → failStep.toNat ≤ 4 →
      Gives (.coldReset jframe failStep bad) s fun t => t.dev.devstat = 3 ∧ t.dev.failStep = failStep ∧ t.mem = [] ∧ t.allCtxs = []) ∧
    (framesInHbm jframe.toNat reservedFrames = true → failStep = 0 →
      Gives (.coldReset jframe failStep bad) s fun t => t.dev.devstat = 2 ∧ t.dev.jbase.toNat = jframe.toNat * 65536 ∧ t.dev.jseq = 1 ∧
        t.groups = [] ∧ t.allCtxs = [] ∧ t.dev.attSeed = attestSeed ∧ t.dev.seedBlocked = true ∧ (∀ i, i < reservedFrames → t.frameState (jframe.toNat + i) = 3) ∧
        ∀ d k, d < 4 → SMap.get 34 (t.die d).groves k =
          ((((List.range 34).filter fun p => !bad.contains (d * 34 + p)).take 32)[k]?).getD 34)) ∧
  ∀ (s : State) (n : BitVec 6) (out : Bool),
    let i : Instr := if out then .toDevice n else .toHost n
    let h := s.hoSlot n.toNat
    ((s.hoTurn n.toNat = false ∨ h.toDevice ≠ out) → exec i s = .next s) ∧
    (s.hoTurn n.toNat = true → h.toDevice = out →
      let ends := fun (code idx : Nat) (t : State) => (t.hoSlot n.toNat).code = BitVec.ofNat 4 code ∧
        (t.hoSlot n.toNat).failidx = BitVec.ofNat 16 idx ∧ (t.hoSlot n.toNat).begun = false ∧ t.dev.jseq = s.dev.jseq + 1 ∧
        t.dev.msix = if h.ctl.getLsbD 31 then s.dev.msix ++ [h.ctl.extractLsb' 25 6] else s.dev.msix
      (h.begun = false → h.pages = 0 ∨ 65536 < h.pages ∨ 2 ^ 54 ≤ h.va → Gives i s (ends 7 0)) ∧
      (h.begun = false → 0 < h.pages → h.pages ≤ 65536 → h.va < 2 ^ 54 →
        (s.ctx? h.ctx = none → Gives i s (ends 6 0)) ∧
        ∀ c, s.ctx? h.ctx = some c →
          (∀ e k, s.hoPages c h h.pages 0 = .error (e, k) → Gives i s (ends e k)) ∧
          ∀ l, s.hoPages c h h.pages 0 = .ok l → Gives i s fun t => (t.hoSlot n.toNat).begun = true ∧ (t.hoSlot n.toNat).code = 1 ∧
            (t.hoSlot n.toNat).leaves = l.map (fun x => (x.1, x.2.1)) ∧ t.dev.jseq = s.dev.jseq ∧
            (out = true → t.shoots = s.shoots) ∧
            (out = false → t.shoots = s.shoots ++
              [{ ctx := h.ctx, g := none, lo := h.va, hi := h.va + 65536 * h.pages, ho := some n.toNat }]) ∧
            ∀ ea lv e, l = [(ea, lv, e)] → inFdt ea = false →
              readD t.mem ea = (e &&& ~~~0xC00#64) ||| (if out then 0x400 else 0) ||| 0x800) ∧
      (h.begun = true →
        let frames := h.leaves.flatMap fun x => leafFrames x.2 (readD s.mem x.1)
        ((∃ q ∈ s.shoots, q.ho = some n.toNat) ∨ (∃ f ∈ frames, s.frameQuiet f = false) → exec i s = .next s) ∧
        ((∀ q ∈ s.shoots, q.ho ≠ some n.toNat) → (∀ f ∈ frames, s.frameQuiet f = true) → Gives i s fun t => ends 2 0 t ∧
          ∀ ea lv, h.leaves = [(ea, lv)] → inFdt ea = false → apart ea 8 s.dev.jbase.toNat 0x400000 →
            readD t.mem ea = (readD s.mem ea &&& ~~~0xC00#64) ||| if out then 0 else 0x400)))

/-- Parts that fail: lanes and links (R437), memory rows and channels (R33, R439), ways of the L2 (R74), frames (R446) and groves
(R277, R445); the answers and the time limit of the fabric (R436), and an access of another package (R13). What stands beside the
rules (a port counts its failures, a retired frame of a larger page) is the model's choice (assumption log 56, 62). -/
def Obligations.PartsThatFail : Prop :=
  (∀ (s : State) (port : Nat), (Gives (.laneFailure port) s fun t => t = { s with dev := t.dev } ∧
      SMap.get 0 t.dev.ports port = SMap.get 0 s.dev.ports port + 1) ∧
    (Gives (.linkLoss port) s fun t => t = { s with dev := t.dev } ∧ port ∈ t.dev.portsDown) ∧
    (port < 12 → Gives (.channelSparing port) s fun t => t = { s with dev := t.dev } ∧ port ∈ t.dev.sparedCh)) ∧
  (∀ (s : State) (frame : BitVec 36) (fixes : Nat), inHbm (frame.toNat * 65536) = true → Gives (.hbmScrub frame fixes) s fun t =>
    readNat t.mem (fdtAt frame.toNat + 4) 1 = min 255 (readNat s.mem (fdtAt frame.toNat + 4) 1 + fixes) ∧
    (∀ a, a ≠ fdtAt frame.toNat + 4 → readByte t.mem a = readByte s.mem a) ∧
    SMap.get 0 t.dev.rowFixes frame.toNat = SMap.get 0 s.dev.rowFixes frame.toNat + fixes) ∧
  (∀ (s : State) (die slice setIdx way : Nat), die < 4 → slice < 64 → setIdx < 768 → way < 16 →
    Gives (.l2WayRetire die slice setIdx way) s fun t => way ∈ SMap.get [] (t.die die).retiredWays (slice * 768 + setIdx) ∧
      (SMap.get [] (t.die die).l2 (slice * 768 + setIdx)).map (fun x => (x.line, x.way)) =
        ((SMap.get [] (s.die die).l2 (slice * 768 + setIdx)).filter (·.way != way)).map fun x => (x.line, x.way)) ∧
  (∀ (s : State) (frame : BitVec 36) (bad : Bool), inHbm (frame.toNat * 65536) = true → s.frameState frame.toNat = 1 →
    let f := frame.toNat
    (bad = true ∨ s.eccBad (f * 65536) 65536 = true ∨ (s.popFrame (s.frameCtx f) (stackOf f) = none ∧ s.canReplace f = true) →
      Gives (.frameRetire frame bad) s fun t => t = { s with dev := t.dev } ∧ f ∈ t.dev.poisoned) ∧
    (bad = false → s.eccBad (f * 65536) 65536 = false → (∀ c ∈ s.allCtxs, ∀ x ∈ s.leavesOf c, leafCovers f x = true → x.2.1 = 3) →
      (s.canReplace f = false → exec (.frameRetire frame bad) s = .next s) ∧
      ∀ f' u, s.canReplace f = true → s.popFrame (s.frameCtx f) (stackOf f) = some (f', u) → f' ≠ f →
        Gives (.frameRetire frame bad) s fun t => t.frameState f = 4 ∧ t.refcnt f = 0 ∧ t.refcnt f' = u.refcnt f ∧
          t.frameCtx f' = u.frameCtx f)) ∧
  (∀ (s : State) (grove : Nat),
    let d := s.die (grove / 32)
    let phys := SMap.get 34 d.groves (grove % 32)
    grove < 128 → phys ≠ 34 → (∀ x ∈ s.allTeams, groveOf x.core ≠ grove) → (s.grove grove).svcq = [] → s.coh = [] →
      (∀ p ∈ s.pend, p.grove ≠ grove) →
      Gives (.groveRetire grove) s fun t => phys ∈ (t.die (grove / 32)).bad ∧
        SMap.get 34 (t.die (grove / 32)).groves (grove % 32) =
          ((List.range 34).find? fun p => !d.bad.contains p && !d.groves.any (·.2 == p)).getD 34 ∧
        ∀ k, k ≠ grove % 32 → SMap.get 34 (t.die (grove / 32)).groves k = SMap.get 34 d.groves k) ∧
  (∀ (s : State) (id : Nat) (code : BitVec 8) (det : Word) (data : List Byte),
    (s.openTxn id = none → exec (.fabricResponse id code det data) s = .next s ∧ exec (.fabricTimeout id) s = .next s) ∧
    ∀ x, s.openTxn id = some x →
      let answered := fun (r : BitVec 8 × Word × List Byte) (t : State) => t.mem = s.mem ∧ t.dev = s.dev ∧
        t.fab = s.fab.map fun y => if y = x then { y with sent := true, resp := some r } else y
      (x.pkg ≠ s.dev.pkgid.toNat → code ≠ 0 ∨ data.length = x.answerSize →
        Gives (.fabricResponse id code det data) s (answered (code, det, data))) ∧
      Gives (.fabricTimeout id) s (answered (BitVec.ofNat 8 Code.fabricTimeout.num, 0, []))) ∧
  ∀ (s : State) (id : Nat) (wr : Bool) (op off : Nat) (tag : BitVec 16) (size : Nat) (data : List Byte), fabLegal op size = true →
    s.looped = [] →
    let i : Instr := .fabricTransaction id wr op off tag size data
    let parts := runs (BitVec.ofNat 64 (off % 2 ^ 41)) size
    let ans := fun (r : BitVec 8 × Word × List Byte) (t : State) => ∃ x, t.fabOut = s.fabOut ++ [x] ∧ x.id = id ∧ x.resp = some r
    ((s.allCtxs.filter (·.jobTag == tag)).length ≠ 1 → Gives i s fun t => t.mem = s.mem ∧
      ans (BitVec.ofNat 8 Code.pagePermission.num, xdetWord true s.dev.pkgid.toNat 7 rsnOutbound (inKind wr op) 0, []) t) ∧
    ∀ c, s.allCtxs.filter (·.jobTag == tag) = [c] →
      (s.inHeld c parts = true → Gives i s fun t => t.mem = s.mem ∧ t.fabOut = s.fabOut ∧ ∃ x ∈ t.fab, x.owner = 0 ∧ x.id = id) ∧
      (s.inHeld c parts = false →
        (∀ e, s.inParts c (inKind wr op) parts = .error e → Gives i s fun t => t.mem = s.mem ∧ ans (e.1, e.2, []) t) ∧
        (∀ p, s.inParts c (inKind wr op) parts = .ok [p] → pteGen p.word ≠ c.gen → op = 0 → wr = false → inFdt p.ea = false →
          Gives i s fun t => readD t.mem p.ea = pteStamp p.word c.gen) ∧
        ∀ l, s.inParts c (inKind wr op) parts = .ok l → (∀ p ∈ l, pteGen p.word = c.gen) →
          (op ≠ probeOp → op ≠ 0 ∨ wr = false → (∃ p ∈ l, s.eccBad p.pa p.n = true) →
            Gives i s fun t => t.mem = s.mem ∧ ans (BitVec.ofNat 8 Code.eccUncorrectable.num, 0, []) t) ∧
          (op = probeOp → Gives i s fun t => t.mem = s.mem ∧ ans (0, 0, []) t) ∧
          (op = 0 → wr = false → (∀ p ∈ l, s.eccBad p.pa p.n = false) →
            Gives i s fun t => t.mem = s.mem ∧ ans (0, 0, l.flatMap fun p => readBytes s.mem p.pa p.n) t) ∧
          ∀ p, l = [p] → inFdt p.pa = false → size ≤ data.length →
            let old := readNat s.mem p.pa p.n
            (op = 0 → wr = true → Gives i s fun t => ans (0, 0, []) t ∧ readBytes t.mem p.pa p.n = data.take p.n ∧
              ∀ b, b < p.pa ∨ p.pa + p.n ≤ b → readByte t.mem b = readByte s.mem b) ∧
            (op ≠ 0 → op < 4096 → s.eccBad p.pa p.n = false → s.pend = [] → s.coh = [] →
              Gives i s fun t => ans (0, 0, readBytes s.mem p.pa p.n) t ∧
                match rmw ((op - 1) / 16) ((op - 1) % 16) old (natOfBytes (data.take 8)) (natOfBytes ((data.drop 8).take 8)) with
                | some v => readNat t.mem p.pa p.n = v % 2 ^ (8 * p.n)
                | none => t.mem = s.mem) ∧
            (4096 ≤ op → op ≠ probeOp → s.eccBad p.pa p.n = false → Gives i s fun t => ans (0, 0, []) t ∧
              readNat t.mem p.pa p.n =
                (rmw ((op - 4096) / 16) ((op - 4096) % 16) old (natOfBytes (data.take size)) 0).getD 0 % 2 ^ (8 * p.n)))

/-- Placement: lending mode (R69), carve levels (R67, R68), headroom (R279), a decision with one candidate (R259, R260, R279), the
state in which groups begin (R241, R261), the window made ready (R64, R65, R245), energy classes (R278), and the ends of teams and
the start of pools (R249, R251, R271). -/
def Obligations.Placement : Prop :=
  (∀ (s : State) (k : Nat),
    (s.teamsOn k = [] → Gives (.lendingEnter k) s fun t => t = { s with cores := t.cores } ∧
      t.core k = { s.core k with lend := true, spways := 0 } ∧ ∀ j, j ≠ k → t.core j = s.core j) ∧
    (s.teamsOn k ≠ [] → exec (.lendingEnter k) s = .next s) ∧
    Gives (.carveUpdate k) s fun t => t = { s with cores := t.cores } ∧ (∀ j, j ≠ k → t.core j = s.core j) ∧
      let c := s.core k
      let level :=
        if 0 < c.defer ∨ 512 ≤ c.shadowHits then c.level - 1
        else if c.lastwayHits < 128 then min (c.level + 1) 4 else c.level
      t.core k = if c.lend = true then c else { c with shadowHits := 0, lastwayHits := 0, defer := 0, level := level }) ∧
  (∀ (s : State) (die : Nat) (used : List Nat), die < 4 → Gives (.headroomRead die used) s fun t =>
    (∀ i, i < 8 * die ∨ 8 * die + 8 ≤ i → t.island i = s.island i) ∧
    ∀ q, q < 8 → let x := s.island (8 * die + q)
      let y := t.island (8 * die + q)
      y.budget = x.budget ∧ y.hot = x.hot ∧ 450 ≤ y.volt.toNat ∧ y.volt.toNat ≤ 750 ∧ (6 ≤ q → y.h = x.h ∧ y.step = x.step) ∧
      (q < 6 → y.h = (x.budget.toNat : Int) - (used.getD q 0 : Nat) ∧ y.lowered = false ∧ y.since = min 11 (x.since + 1) ∧
        y.step = if 10 ≤ x.since ∧ (x.budget.toNat : Int) ≤ 4 * y.h ∧ s.dev.throttle = false ∧ x.hot = false then x.step - 1 else x.step)) ∧
  (∀ (s : State) (die : Nat), s.choices die = [] → s.deferrals die = [] → exec (.placementDecision die) s = .next s) ∧
  (∀ (s : State) (die : Nat) (x : Choice) (j k : Nat), s.choices die = [x] → s.deferrals die = [] → x.cand.kind = .team j → s.bestCore x.cores = some k →
    (∀ m ∈ x.cores, s.islandNo m = s.islandNo k) →
    let u := (s.placeTeam x.ctx x.unit k j x.cand.groups x.unit.def_.entry x.unit.def_.args none).spend x.unit k
    let v := if (classEnergy x.unit.eclassNow : Int) ≤ (s.island (s.islandNo k)).h then u else u.lowerIsland (s.islandNo k)
    (∀ n, v.settle1 n = none) → exec (.placementDecision die) s = .next v) ∧
  (∀ (s : State) (c : Ctx) (u : UnitRec) (core j n : Nat) (entry : DWord) (args : List Word) (chunk : Option (Nat × Nat)), n ≤ 32 →
    let t := s.placeTeam c u core j n entry args chunk
    (t.core core).lend = false ∧ t.g = s.g ∧ t.mem = s.mem ∧
    (∃ m, t.teams = s.teams ++ [m] ∧ m.key = s.fresh ∧ m.ctx = c.num ∧ m.unit = u.key ∧ m.size = n ∧ m.core = core ∧
      m.w = u.def_.window (s.core core).level ∧ m.win = [] ∧ m.zeroed = false) ∧
    ∃ l, t.others = s.others ++ l ∧ l.length = n ∧ ∀ (i : Nat) (h : Group), l[i]? = some h →
      h.team = s.fresh ∧ h.ctx = c.num ∧ h.grp.toNat = i ∧ h.core = core ∧ h.slot < 4 ∧ h.st = .loading ∧ h.pc = entry ∧
      h.exec = 0xFFFFFFFF ∧ h.cmask = 0 ∧ h.scc = false ∧ h.mode = 0x1020 ∧ h.vregs = u.def_.vregs ∧ h.sregs = u.def_.sregs ∧
      h.fmts = u.def_.fmts ∧ ∀ m, h.sreg m = if m < 8 then args.getD m 0 else 0) ∧
  (∀ (s : State) (k : Nat) (m : Team), s.team? k = some m →
    (m.zeroed = true ∨ s.waysToDrain m = 0 → exec (.localStoreDrain k) s = .next s) ∧
    (m.zeroed = false → s.waysToDrain m ≠ 0 → exec (.windowZeroFill k) s = .next s ∧ Gives (.localStoreDrain k) s fun t =>
      t.mem = s.mem ∧ (t.core m.core).spways = (s.core m.core).spways + 1 ∧
      ∀ x ∈ (t.grove (groveOf m.core)).lru, sliceCore (groveOf m.core) x.line = m.core → x.way + 1 ≠ (s.core m.core).l1Ways) ∧
    (m.zeroed = true → exec (.windowZeroFill k) s = .next s) ∧
    (m.zeroed = false → s.waysToDrain m = 0 → m.loadBack = false → Gives (.windowZeroFill k) s fun t =>
      t.team? k = some { m with win := [], zeroed := true, loadBack := false } ∧ t.mem = s.mem ∧
      (∀ g ∈ s.groups, g.team = k → g.loaded ∈ t.groups) ∧ ∀ g ∈ s.groups, g.team ≠ k → g ∈ t.groups) ∧
    (m.zeroed = false → s.waysToDrain m = 0 → m.loadBack = true → (∀ g ∈ s.groups, g.team = k → g.trc.on = false) →
      Gives (.windowZeroFill k) s fun t => t.team? k = some { m with zeroed := true, loadBack := false } ∧
        ∀ g ∈ s.groups, g.team = k → g.loaded ∈ t.groups)) ∧
  (∀ (s : State) (ctx k mean : Nat) (c : Ctx) (u : UnitRec), s.ctx? ctx = some c → c.unit? k = some u →
    Gives (.eclassRefine ctx k mean) s fun t => (t.ctx? ctx).bind (·.unit? k) =
      some (if u.refined = false ∧ 64 ≤ u.ended.length then { u with eclassNow := classOf mean, refined := true } else u)) ∧
  (∀ (s : State) (k : Nat), s.team? k = none → exec (.teamComplete k) s = .next s) ∧
  (∀ (s : State) (k : Nat) (m : Team), s.team? k = some m →
    (s.teamDone m = false ∨ s.hwHeld m.ctx = true → exec (.teamComplete k) s = .next s) ∧
    (s.teamDone m = true → s.hwHeld m.ctx = false → ∀ c u, s.ctx? m.ctx = some c → c.unit? m.unit = some u → u.def_.kind = 0 →
      let v := (s.removeTeam k).endMember m.ctx u.key m.idx.toNat (s.teamStatus k)
      (v.settle1 m.ctx = none → c.preempt = .none → exec (.teamComplete k) s = .next v) ∧
      Gives (.teamComplete k) s fun t => t.team? k = none)) ∧
  (∀ (s : State) (ctx k : Nat) (c : Ctx) (u : UnitRec) (x : Nat → Nat), s.ctx? ctx = some c → c.unit? k = some u →
    (c.poolStarts u = false ∨ s.hwHeld ctx = true → exec (.poolStart ctx k) s = .next s) ∧
    (c.poolStarts u = true → s.hwHeld ctx = false → u.err = 0 → (∀ i, i ≤ u.def_.cap → s.tcbRead c u i = some (x i)) →
      let armed := fun (i : Nat) => i ≤ u.def_.cap ∧ tcbStatus (x i) = 1
      let s1 := s.modUnit ctx k fun w =>
        { w with started := true, live := ((List.range (u.def_.cap + 1)).filter fun i => tcbStatus (x i) == 1).length }
      ((∀ i, armed i → bitsN (x i) 320 16 ≠ 0) → exec (.poolStart ctx k) s = .next (s1.settle ctx)) ∧
      ∀ i v, armed i → bitsN (x i) 320 16 = 0 → tcbMalformed (x i) = false → (∀ j, armed j → i < j → False) →
        (∀ j, armed j → j ≠ i → bitsN (x j) 320 16 ≠ 0) → s1.tcbStatusWrite c u i (x i) 2 = some v →
        exec (.poolStart ctx k) s = .next
          ((v.modUnit ctx k fun w => { w with readyQ := readyInsert (v.tcbPrio c u) i w.readyQ }).settle ctx)))

/-- What stops groups: the deadlock walk (R398, R399), the watchdog (R248), traps and faults met after issue (R237, R376, R380), the
halt of a partition and containment (R383 to R388), the forced reset (R397), and a save with its deadline (R392 to R395).
`State.skids` is the wait for what each party has begun (R201, R351, R383). -/
def Obligations.HaltsAndSaves : Prop :=
  (∀ (s : State) (ctx : Nat) (c : Ctx), s.ctx? ctx = some c →
    (c.running = false ∨ (c.walkSnap = none ∧ s.deadlocked ctx = []) → exec (.deadlockWalk ctx) s = .next s) ∧
    (c.running = true → c.walkSnap = none → s.deadlocked ctx ≠ [] →
      Gives (.deadlockWalk ctx) s fun t => t.mem = s.mem ∧ t.groups = s.groups ∧
        t.ctx? ctx = some { c with walkSnap := some (s.deadlocked ctx) }) ∧
    (c.running = true → s.keysApart → ∀ l, c.walkSnap = some l → Gives (.deadlockWalk ctx) s fun t => t.mem = s.mem ∧
      ∃ c', t.ctx? ctx = some c' ∧ c'.walkSnap = none ∧
        ((∀ x ∈ s.deadlocked ctx, x ∉ l) → t.groups = s.groups ∧ c'.halt = c.halt) ∧
        ∀ x ∈ s.deadlocked ctx, x ∈ l → c'.halt ≠ .lowered ∧ (∃ f ∈ c'.faults, f.g = x.1 ∧ f.raise.code = .deadlock) ∧
          ∃ h, t.group? x.1 = some h ∧ h.st = .stopped)) ∧
  (∀ s : State, s.focused →
    (s.atBoundary s.g = false → exec (.watchdog s.g.key) s = .next s ∧ exec (.trapEntry s.g.key) s = .next s) ∧
    (s.g.wdcount < s.g.wdLimit → exec (.watchdog s.g.key) s = .next s) ∧
    (s.atBoundary s.g = true → s.g.wdLimit ≤ s.g.wdcount →
      Gives (.watchdog s.g.key) s fun t => Faulted s t { code := .watchdog } s.g.pc) ∧
    (s.g.late = none → s.g.bounds = [] → exec (.trapEntry s.g.key) s = .next s) ∧
    (s.atBoundary s.g = true → ∀ r, s.g.late = some r → Gives (.trapEntry s.g.key) s fun t => t.g.late = none ∧ t.g.bounds = s.g.bounds ∧
      (r.taken s → Entered s t r s.g.pc) ∧ (¬ r.taken s → Faulted s t r s.g.pc)) ∧
    (s.atBoundary s.g = true → s.g.late = none → ∀ b l, s.g.bounds = b :: l → Gives (.trapEntry s.g.key) s fun t => t.g.bounds = l ∧
      t.g.bxpc = b.pc ∧ t.g.bxdet.toNat = 256 * (b.reason % 16) + 16 * (b.bank % 16) ∧ t.g.rwrec = b.rule.getD s.g.rwrec ∧
      let r : Raise := { code := .boundExceeded }
      (r.taken s → Entered s t r s.g.pc) ∧ (¬ r.taken s → Faulted s t r s.g.pc))) ∧
  (∀ (s : State) (ctx : Nat) (c : Ctx), s.ctx? ctx = some c →
    let busy := s.skids ctx
    (busy = true ∨ (c.halt ≠ .raised ∧ ¬ (c.halt = .lowered ∧ c.cut = some 3)) → exec (.faultHalt ctx) s = .next s) ∧
    (busy = false → c.halt = .raised → s.keysApart → Gives (.faultHalt ctx) s fun t =>
      (∀ g ∈ t.groups, g.ctx = ctx → g.stands) ∧ ∃ c', t.ctx? ctx = some c' ∧ c'.halt = .stopped ∧ c'.haltCause = 1) ∧
    (busy = false → c.halt = .lowered → c.cut = some 3 → s.keysApart → Gives (.faultHalt ctx) s fun t =>
      (∀ g ∈ t.groups, g.ctx = ctx → g.stands) ∧ ∃ c', t.ctx? ctx = some c' ∧ c'.debugHalt = true ∧ c'.cut = none ∧ c'.breaks = []) ∧
    (c.halt ≠ .stopped ∨ s.hwHeld ctx = true → exec (.containment ctx) s = .next s) ∧
    (c.halt = .stopped → s.hwHeld ctx = false → s.keysApart → (∀ f ∈ c.faults, f.raise.code ≠ .saveFault) →
      Gives (.containment ctx) s fun t => (∃ c', t.ctx? ctx = some c' ∧ c'.halt ≠ .stopped) ∧
        ∀ f ∈ c.faults, ∀ g, s.group? f.g = some g → s.policyTerminates g = true → ∀ h, t.group? f.g = some h → h.st = .ended)) ∧
  (∀ (s : State) (ctx : Nat) (c : Ctx), s.ctx? ctx = some c → s.unwatched →
    let inSave := c.isSaving = true ∨ c.preempt = .saved ∨ c.preempt = .restoring
    let gone := fun (t : State) => s.dev.jseq < t.dev.jseq ∧ (∀ m ∈ t.allTeams, m.ctx ≠ ctx) ∧ ∃ c', t.ctx? ctx = some c' ∧
      c'.preempt = .none ∧ c'.halt = .lowered ∧ c'.faults = [] ∧ ∀ u ∈ c'.units, u.complete ≠ none ∨ u.cancelled = true
    (inSave → Gives (.forcedReset ctx) s gone) ∧ (¬ inSave → exec (.forcedReset ctx) s = .next s) ∧
    (c.halt = .stopped → s.hwHeld ctx = false → (∃ f ∈ c.faults, f.raise.code = .saveFault) → Gives (.containment ctx) s gone)) ∧
  ∀ (s : State) (ctx : Nat) (c : Ctx), s.ctx? ctx = some c → s.keysApart →
    let ready := c.cut = some 2 ∧ c.halt = .lowered ∧ s.skids ctx = false
    ((∀ a b, c.preempt ≠ .draining a b) → (c.isSaving = false ∨ ¬ ready) → exec (.saveRequest ctx) s = .next s) ∧
    (∀ a b, c.preempt = .draining a b → s.unwatched → Gives (.saveRequest ctx) s fun t =>
      (∃ c', t.ctx? ctx = some c' ∧ c'.preempt = .saving a b ∧
        c'.cut = if c.cut = some 3 then some 3 else if c.debugHalt = true then none else some 2) ∧
      ∀ g ∈ s.groups, g.ctx = ctx → ∃ h, t.group? g.key = some h ∧ h.st = g.st ∧
        (g.tr.tmask = true → ¬ g.stands → h.tr.preq = true) ∧ (g.tr.tmask = false → h.tr.preq = g.tr.preq)) ∧
    (c.isSaving = true → ready → Gives (.saveRequest ctx) s fun t => (∃ c', t.ctx? ctx = some c' ∧ c'.cut = none) ∧
      ∀ g ∈ s.groups, g.ctx = ctx → ∃ h, t.group? g.key = some h ∧ (g.tr.tmask = false → h.stands) ∧
        (g.tr.tmask = true → h.st = g.st)) ∧
    (c.isSaving = false → exec (.preemptDeadline ctx) s = .next s) ∧
    (c.isSaving = true → Gives (.preemptDeadline ctx) s fun t => (∃ c', t.ctx? ctx = some c' ∧ c'.overdue = true) ∧
      (c.calm = true → ∀ g ∈ s.groups, g.ctx = ctx → ¬ g.stands → s.groupSkids g.key = false →
        ∃ h, t.group? g.key = some h ∧ h.st = .stopped ∧ h.stopCause = 5 ∧ h.tr.preq = false)) ∧
    (c.isSaving = false ∨ c.calm = false ∨ (c.overdue = false ∧ (s.readyToSave ctx = false ∨ s.handoverBusy ctx = true)) →
      exec (.contextSave ctx) s = .next s) ∧
    ∀ a b, c.preempt = .saving a b → c.calm = true → c.overdue = false → s.readyToSave ctx = true → s.handoverBusy ctx = false →
      s.tops = [] → s.canShoot ctx = true → s.unwatched →
      let v := s.markFrames c.savedFrames 0
      ∀ f, v.freeRun (v.saveArea c (a, b)).frames = some f →
        Gives (.contextSave ctx) s fun t => (∀ m ∈ t.allTeams, m.ctx ≠ ctx) ∧ ∃ c' l, t.ctx? ctx = some c' ∧ c'.preempt = .saved ∧
          c'.gen = c.gen + 1 ∧ c'.saved = some l ∧ l.groups = (s.groupsOf ctx).map (fun g => { g with held := [] }) ∧
          l.teams = s.teamsOf ctx ∧ l.times = (a, b) ∧ c'.savedFrames = rangeFrom f l.frames

/-- Coherence: requests of an L1 slice at the homing slice, its messages and its grants (R83 to R88), evictions (R61, R87), and the
fill of an instruction line (R143). Only a grant changes memory, and it changes what the stores that waited for it write (R85, R92). -/
def Obligations.Coherence : Prop :=
  (∀ (s : State) (line : Nat) (q : CohReq), s.cohFirst line = some q →
    let placed := (s.l2Set line).any (·.line == line) = true ∧
      ∃ x, (s.grove q.grove).lru.find? (·.line == line) = some x ∧ x.way ∈ s.l1WaysFor q.grove line
    let inSpan := fun (i : Nat) => q.first ≤ i ∧ i < q.first + q.n ∧ i < 32
    let sent := fun (t : State) => t.mem = s.mem ∧
      t.cohFirst line = some { q with taken := true, toBcast := s.overflows q, msgs := s.cohMsgs q }
    (q.taken = false → q.write = true → (s.cohMsgs q ≠ [] ∨ s.overflows q = false) → Gives (.getw q.grove line q.first q.n) s sent) ∧
    (q.taken = false → q.write = false → s.cohMsgs q ≠ [] → Gives (.gets q.grove line q.first q.n) s sent) ∧
    (q.taken = false → q.write = false → s.cohMsgs q = [] → Gives (.gets q.grove line q.first q.n) s fun t =>
      t.mem = s.mem ∧ (∀ x ∈ t.coh, x.id ≠ q.id) ∧ (placed → ∀ i, inSpan i → ((t.grove q.grove).word line i).valid = true)) ∧
    (∀ g f n, q.taken = true → exec (.gets g line f n) s = .next s ∧ exec (.getw g line f n) s = .next s) ∧
    ∀ (gr : Nat) (k : CohKind) (m : Word),
      let i : Instr := match k with | .recall => .recallWords gr line m | .inv => .inv gr line m | .binv => .binv gr line
      let msg := (gr, k, if k = .binv then 0xFFFFFFFF else m)
      let done := fun (t : State) => t.mem = s.mem ∧ ∀ j, j < 32 → laneBit msg.2.2 j = true →
        ((t.grove gr).word line j).granted = false ∧ (k ≠ .recall → ((t.grove gr).word line j).valid = false)
      (q.taken = false ∨ msg ∉ q.msgs → exec i s = .next s) ∧
      (q.taken = true → msg ∈ q.msgs → (q.msgs.erase msg ≠ [] ∨ (q.write = true ∧ q.toBcast = false)) → Gives i s fun t => done t ∧
        t.cohFirst line = some { q with msgs := q.msgs.erase msg }) ∧
      (q.taken = true → msg ∈ q.msgs → q.msgs.erase msg = [] → q.write = true → q.toBcast = true → q.grove < 128 →
        Gives i s fun t => done t ∧ (∃ l, t.cohFirst line = some { q with msgs := l, toBcast := false }) ∧
          ∃ dies un, t.dirOf line = .broadcast dies un) ∧
      (q.taken = true → msg ∈ q.msgs → q.msgs.erase msg = [] → q.write = false → Gives i s fun t => t.mem = s.mem ∧
        ∀ x ∈ t.coh, x.id ≠ q.id)) ∧
  (∀ (s : State) (g : Nat),
    ((∀ q ∈ s.coh, q.g = g → q.write = true → q.taken = true → q.msgs ≠ []) → exec (.coherenceGrant g) s = .next s) ∧
    ∀ q, s.coh.find? (fun q => q.g == g && q.write && q.taken && q.msgs.isEmpty) = some q →
      (s.l2Set q.line).any (·.line == q.line) = true →
      (∃ x, (s.grove q.grove).lru.find? (·.line == q.line) = some x ∧ x.way ∈ s.l1WaysFor q.grove q.line) →
      let granted := fun (t : State) => (∀ x ∈ t.coh, x.id ≠ q.id) ∧ ∀ i, q.first ≤ i → i < q.first + q.n → i < 32 →
        ((t.grove q.grove).word q.line i).valid = true ∧ ((t.grove q.grove).word q.line i).granted = true
      ((∀ p ∈ s.pend, p.grove ≠ q.grove ∨ lineOf p.pa ≠ q.line) → Gives (.coherenceGrant g) s fun t => granted t ∧ t.mem = s.mem ∧
        t.pend = s.pend) ∧
      ∀ p, s.pend = [p] → p.grove = q.grove → lineOf p.pa = q.line → inFdt p.pa = false →
        (∀ i, i < 32 → laneBit p.mask i = true → q.first ≤ i ∧ i < q.first + q.n) →
        Gives (.coherenceGrant g) s fun t => granted t ∧ t.pend = [] ∧ readBytes t.mem p.pa p.bytes.length = p.bytes ∧
          (∀ a, a < p.pa ∨ p.pa + p.bytes.length ≤ a → readByte t.mem a = readByte s.mem a) ∧
          ∀ h, s.group? p.g = some h → ∃ h', t.group? p.g = some h' ∧ h'.cnt = (h.doneOp 1 p.insn).cnt) ∧
  (∀ (s : State) (gr line : Nat) (m : Word),
    (Gives (.wb gr line m) s fun t => t.mem = s.mem ∧ (∀ k, k ≠ gr → t.grove k = s.grove k) ∧ ∀ i, i < 32 →
      (t.grove gr).word line i =
        if laneBit m i = true ∧ ((s.grove gr).word line i).granted = true then {} else (s.grove gr).word line i) ∧
    Gives (.drop gr line m) s fun t => t.mem = s.mem ∧ (∀ k, k ≠ gr → t.grove k = s.grove k) ∧ ∀ i, i < 32 →
      let w := (s.grove gr).word line i
      (t.grove gr).word line i = if laneBit m i = true ∧ w.valid = true ∧ w.granted = false then { w with valid := false } else w) ∧
  ∀ (s : State) (n : Nat), (s.fills.length ≤ n → exec (.fetchFill n) s = .next s) ∧
    ∀ q, s.fills = [q] → Gives (.fetchFill 0) s fun t => t.mem = s.mem ∧ t.fills = [] ∧
      ∃ l, (t.core q.core).iline q.ctx q.line = some l ∧ l.words = lineWords s.mem q.line ∧
        ∀ i, i < 32 → l.bad.getLsbD i = s.eccBad (q.line * 128 + 4 * i) 4

/-- The steps of the engines on one run of memory: a request starts, a chunk, a batch or an element is moved and its arrival
posted, and the cursor goes on (R182, R186, R187); a root streamer fills or drains a slot (R195). The arbiter's grant, on a chain
passed on to the east (R347); `bclr` and `mma` performed (R218, R339, R343); a re-issue refused, begun, repeated, committed or
abandoned (R233, R235, R237). `tdef.meas` and `ldw` performed (R328, R341). -/
def Obligations.EnginesAndArrays : Prop :=
  (∀ (s : State) (core cls : Nat),
    let runs8 := 8 ≤ (s.engs.filter fun e => e.core == core && e.running).length
    let next := s.engs.find? fun e => e.core == core && e.cls == cls && !e.running && s.ctxRuns e.ctx
    (runs8 ∨ next = none → exec (.engineRequestStart core cls) s = .next s) ∧
    (¬ runs8 → ∀ e, next = some e → Gives (.engineRequestStart core cls) s fun t => t = { s with engs := t.engs } ∧
      { e with running := true } ∈ t.engs ∧ ∀ x ∈ s.engs, x.id ≠ e.id → x ∈ t.engs)) ∧
  (∀ (s : State) (core i : Nat),
    (s.running? core 0 i = none → exec (.engineChunkDone core i) s = .next s) ∧
    (s.running? core 1 i = none → exec (.gatherBatch core i) s = .next s) ∧
    (s.running? core 2 i = none → exec (.copyReduceUpdate core i) s = .next s)) ∧
  (∀ (s : State) (core i : Nat) (e : EngReq) (m : Team) (c : Ctx), s.team? e.team = some m → s.ctx? e.ctx = some c → e.stopReq = false →
    s.pend = [] →
    let n := e.chunk
    let sound := fun (o k : Nat) => m.eccBad o k = false
    let cur := e.past n
    let moved := fun (t : State) =>
      if e.rows ≤ cur.1 then ∀ x ∈ t.engs, x.id ≠ e.id else { e with row := cur.1, byte := cur.2, acc := 0 } ∈ t.engs
    (s.running? core 0 i = some e → e.srcsp = false → e.dstsp = true → e.bar = none →
      ∀ pa k x v a b, s.pieces c e.who .read (runs e.srcAt n) = .ok [.loc pa k x v a b] → s.eccBad pa k = false →
        Gives (.engineChunkDone core i) s fun t => t.mem = s.mem ∧ moved t ∧ ∃ m', t.team? e.team = some m' ∧
          winBytes m'.win e.dstAt.toNat k = readBytes s.mem pa k ∧
          ∀ o, o < e.dstAt.toNat ∨ e.dstAt.toNat + k ≤ o → winByte m'.win o = winByte m.win o) ∧
    (s.running? core 0 i = some e → e.srcsp = true → e.dstsp = false → sound e.srcAt.toNat n →
      ∀ pa k x v a b, s.pieces c e.who .write (runs e.dstAt n) = .ok [.loc pa k x v a b] → inFdt pa = false →
        (e.bar = none → Gives (.engineChunkDone core i) s fun t => moved t ∧ readBytes t.mem pa k = winBytes m.win e.srcAt.toNat k ∧
          ∀ o, o < pa ∨ pa + k ≤ o → readByte t.mem o = readByte s.mem o) ∧
        ∀ off y, e.bar = some off → e.arrive = false → sound off 16 → (m.bar off).arrive 0 n = some y →
          Gives (.engineChunkDone core i) s fun t => moved t ∧ ∃ m', t.team? e.team = some m' ∧ m'.bar off = y) ∧
    (s.running? core 1 i = some e → e.rows = e.row + 1 → e.bar = none → sound (e.idxOff + 4 * e.row) 4 →
      ∀ pa k x v a b, s.pieces c e.who .read
          (runs (addOff e.src ((winNat m.win (e.idxOff + 4 * e.row) 4 : Nat) * e.sstride)) e.rowlen) = .ok [.loc pa k x v a b] →
        s.eccBad pa k = false →
        let o := (addOff e.dst (e.row * e.dstride)).toNat
        Gives (.gatherBatch core i) s fun t => t.mem = s.mem ∧ (∀ x ∈ t.engs, x.id ≠ e.id) ∧ ∃ m', t.team? e.team = some m' ∧
          winBytes m'.win o k = readBytes s.mem pa k ∧ ∀ j, j < o ∨ o + k ≤ j → winByte m'.win j = winByte m.win j) ∧
    (s.running? core 2 i = some e → e.srcsp = true → e.dstsp = false → e.bar = none →
      let size := typeW e.ety / 8
      sound e.srcAt.toNat size →
      ∀ pa k x v a b, s.pieces c e.who .write (runs e.dstAt size) = .ok [.loc pa k x v a b] → inFdt pa = false → s.eccBad pa k = false →
        Gives (.copyReduceUpdate core i) s fun t => (∀ o, o < pa ∨ pa + k ≤ o → readByte t.mem o = readByte s.mem o) ∧
          ∀ z, rmw e.op e.ety (readNat s.mem pa k) (winNat m.win e.srcAt.toNat size) 0 = some z →
            readNat t.mem pa k = z % 2 ^ (8 * k))) ∧
  (∀ (s : State) (n : Nat) (b : Sub) (m : Team) (c : Ctx), s.sub? n = some b → s.team? b.team = some m → s.ctx? m.ctx = some c →
    let r := m.ring b.ring
    (s.subRuns b = false → exec (.loaderFill n) s = .next s ∧ exec (.storerDrain n) s = .next s) ∧
    (b.store = true → exec (.loaderFill n) s = .next s) ∧ (b.store = false → exec (.storerDrain n) s = .next s) ∧
    (b.store = false → r.free = 0 → exec (.loaderFill n) s = .next s) ∧
    (b.store = true → r.nslot ≤ r.free → exec (.storerDrain n) s = .next s) ∧
    (s.subRuns b = true → s.pend = [] → b.rows = 1 → b.limited = false → r.nslot ≠ 0 → ∀ pa k x v a q,
      let at_ := if b.store then r.take else r.put
      let slot := r.slotOff + at_ * 128 * r.slotsz
      let bar := r.barOff + 16 * at_
      apart slot k bar 16 → apart b.ring 16 slot k → apart b.ring 16 bar 16 → m.eccBad bar 16 = false →
      s.pieces c (b.who m.core) (if b.store then .write else .read) (runs b.next b.rowlen) = .ok [.loc pa k x v a q] →
      ∀ y, (m.bar bar).arrive 0 b.rowlen = some y →
        let done := fun (t : State) => { b with next := b.next + b.step, left := b.left - 1 } ∈ t.subs
        (b.store = false → r.free ≠ 0 → s.eccBad pa k = false → Gives (.loaderFill n) s fun t => done t ∧ t.mem = s.mem ∧ ∃ m', t.team? b.team = some m' ∧
          winBytes m'.win slot k = readBytes s.mem pa k ∧ m'.bar bar = y ∧
          m'.ring b.ring = { r with free := r.free - 1, put := (r.put + 1) % r.nslot }) ∧
        (b.store = true → r.free < r.nslot → m.eccBad slot b.rowlen = false → inFdt pa = false → Gives (.storerDrain n) s fun t => done t ∧
          readBytes t.mem pa k = winBytes m.win slot k ∧ ∃ m', t.team? b.team = some m' ∧ m'.bar bar = y ∧
          m'.ring b.ring = { r with free := r.free + 1, take := (r.take + 1) % r.nslot }))) ∧
  (∀ (s : State) (gr : Nat),
    let u := s.array gr
    let granted := fun (p : Nat) (x : ArrayStep) (t : State) => (t.array gr).started = some x ∧ (t.array gr).holder = p ∧
      (t.array gr).queue = u.queue.erase x ∧ ∀ k, k ≠ gr → t.array k =
        if k = gr + 1 ∧ x.off + 1 < x.chainLen then { s.array k with queue := (s.array k).queue ++ [{ x with off := x.off + 1 }] }
        else s.array k
    (u.started ≠ none ∨ (∀ p, s.nextStep gr p = none) → exec (.arrayStepStart gr) s = .next s) ∧
    (u.started = none → u.used < 512 → ∀ x, s.nextStep gr u.holder = some x → Gives (.arrayStepStart gr) s (granted u.holder x)) ∧
    (u.started = none → (512 ≤ u.used ∨ s.nextStep gr u.holder = none) → ∀ x, s.nextStep gr ((u.holder + 1) % 4) = some x →
      Gives (.arrayStepStart gr) s (granted ((u.holder + 1) % 4) x)) ∧
    (u.started = none → exec (.arrayStepEnd gr) s = .next s ∧ ∀ n, exec (.reissue gr n) s = .next s)) ∧
  (∀ (s : State) (gr : Nat) (x : ArrayStep), (s.array gr).started = some x → x.chainLen = 1 → x.off = 0 →
    let b := s.bank gr x.bank
    let goesOn := fun (y : ArrayStep) (t : State) =>
      (t.array gr).started = some y ∨ ((t.array gr).started = none ∧ (t.array gr).queue.head? = some y)
    let trapped := fun (code : Nat) (t : State) => ∀ g, s.group? x.g = some g → ∃ h, t.group? x.g = some h ∧
      h.bounds = g.bounds ++ [{ pc := x.pc, bank := x.bank, reason := code, rule := x.rule }]
    (x.wantReissue = true → exec (.arrayStepEnd gr) s = .next s) ∧
    (x.wantReissue = false → x.kind = .bclr → Gives (.arrayStepEnd gr) s fun t => (t.array gr).started = none ∧
      (∀ e, (t.bank gr x.bank).elem e = 0) ∧ (t.bank gr x.bank).bnd = x.term ∧ (t.bank gr x.bank).isSealed = false ∧
      (t.bank gr x.bank).logcnt = 0 ∧ (t.bank gr x.bank).owner = b.owner ∧
      ∀ g, s.group? x.g = some g → t.group? x.g = some (g.doneMma x.id)) ∧
    (x.wantReissue = false → ∀ h n fmt rb cb neg sigma m p, x.kind = .mma h n fmt rb cb neg sigma false → s.team? x.team = some m →
      (s.planes gr x.pos).front = some p → 16 * cb + p.n ≤ 64 → Gives (.arrayStepEnd gr) s fun t =>
        (∀ i j, i < h.lrows → j < p.n → (t.bank gr x.bank).elem (64 * (16 * rb + i) + (16 * cb + j)) = BitVec.ofNat 80 (b.fmt.step
          (macElem b.fmt (fun k => foldFactor neg sigma (h.lval m.win fmt false i k)) (fun k => p.val k j)
            (b.val (16 * rb + i) (16 * cb + j)) p.k).1)) ∧
        (∀ e, e / 64 < 16 * rb ∨ 16 * rb + h.lrows ≤ e / 64 ∨ e % 64 < 16 * cb ∨ 16 * cb + p.n ≤ e % 64 →
          (t.bank gr x.bank).elem e = b.elem e) ∧
        (t.bank gr x.bank).logcnt = if b.logcnt < 16 then b.logcnt + 1 else 17) ∧
    (∀ n, x.wantReissue = false ∨ x.bank ≠ n → exec (.reissue gr n) s = .next s) ∧
    (x.wantReissue = true → s.ctxRuns x.ctx = false → Gives (.reissue gr x.bank) s fun t =>
      (t.array gr).started = none ∧ (t.array gr).queue.head? = some { x with work := none, rep := 0 } ∧
      (t.bank gr x.bank).pending = true) ∧
    (x.wantReissue = true → s.ctxRuns x.ctx = true → x.kind.isLog = false →
      (x.work = none → s.refusal gr x.bank x.mode ≠ 0 → Gives (.reissue gr x.bank) s fun t => (t.array gr).started = none ∧
        (∀ e, (t.bank gr x.bank).elem e = b.elem e) ∧ trapped (s.refusal gr x.bank x.mode) t) ∧
      (x.work = none → s.refusal gr x.bank x.mode = 0 → Gives (.reissue gr x.bank) s fun t =>
        goesOn { x with work := some (s.reissueBase b), rep := 0 } t ∧ (t.bank gr (partnerOf x.bank)).heldFor = some x.bank ∧
        (t.bank gr x.bank).pending = false ∧ ∀ e, (t.bank gr x.bank).elem e = b.elem e) ∧
      (∀ w c, x.work = some w → b.log[x.rep]? = some c → Gives (.reissue gr x.bank) s fun t => t.bank gr x.bank = b ∧
        goesOn { x with work := some (s.repeatContrib (s.bankTeam b) w c), rep := x.rep + 1 } t) ∧
      ∀ w, x.work = some w → b.log[x.rep]? = none → Gives (.reissue gr x.bank) s fun t => (t.array gr).started = none ∧
        t.bank gr x.bank = b.commit w ∧ ((b.commit w).exceeded x.mode = true → trapped 8 t))) ∧
  ∀ (s : State) (n : Nat), (s.tops.find? (·.id == n) = none → exec (.tileTransferDone n) s = .next s) ∧
    ∀ x, s.tops.find? (·.id == n) = some x →
      ((s.ctxRuns x.ctx = false ∧ s.topMid x = false) ∨ s.tileReady x = false → exec (.tileTransferDone n) s = .next s) ∧
      (s.ctxRuns x.ctx = true → s.tileReady x = true → s.tileEcc x = false → x.stale = false → ∀ m, s.team? x.team = some m →
        let ended := fun (t : State) => t.mem = s.mem ∧ (∀ y ∈ t.tops, y.id ≠ x.id) ∧
          ∀ g, s.group? x.g = some g → t.group? x.g = some (g.doneMma x.id)
        (∀ h k fmt, x.kind = .meas h k fmt → (m.handle k).sameTile h = true → Gives (.tileTransferDone n) s fun t => ended t ∧
          ∃ m', t.team? x.team = some m' ∧ m'.win = m.win ∧ match h.measure m.win fmt with
            | some a => m'.handle k = { m.handle k with hm := upF32 a.1 a.2 }
            | none => m'.handle k = { m.handle k with hm := infF32, hb := infF32 }) ∧
        ∀ h k fmt, x.kind = .ldw h k fmt → Gives (.tileTransferDone n) s fun t => ended t ∧
          (t.planes (groveOf x.core) (x.core % 4)).front = (s.planes (groveOf x.core) (x.core % 4)).front ∧
          ∃ p, (t.planes (groveOf x.core) (x.core % 4)).shadow = some p ∧ p.k = h.lrows ∧ p.n = h.lcols ∧ p.tag = h.tag ∧
            p.owner = x.g ∧ ∀ i j, i < p.k → j < p.n → p.elems.getD (i * p.n + j) 0 = BitVec.ofNat 64 (h.lcode m.win i j))

/-- Decode and encode agree (R124 to R128): every well-formed instruction with an encoding is what its own words decode to, from the
words and from the bytes at the PC; the word after an instruction that is not of format RL is not read. -/
def Obligations.DecodeEncode : Prop :=
  ∀ i : Instr, i.encoded = true → i.wellFormed = true → ∃ w lit, encode i = some (w, lit) ∧ decode w lit = .ok i ∧
    let bytes := fun (x : Word) => [x.extractLsb' 0 8, x.extractLsb' 8 8, x.extractLsb' 16 8, x.extractLsb' 24 8]
    ∀ rest, (isRl w = false → lit = 0 ∧ decodeBytes (bytes w ++ rest) = some (.ok i, rest)) ∧
      (isRl w = true → decodeBytes (bytes w ++ bytes lit ++ rest) = some (.ok i, rest))

/-- The model's invariant of R263: no group that stands or is gone holds another back; every step keeps it, from every state. -/
def Obligations.HeldInvariant : Prop := ∀ s t : State, s.heldLive → step s = .next t → t.heldLive

/-- The invariant of `HeldInvariant` holds at reset. -/
def Obligations.HeldAtReset : Prop := State.reset.heldLive

/-- No step and no instruction is refused, and only an access of the host window at an unassigned physical address has no next state:
the spec says nothing of that one (R18, R427). -/
def Obligations.NothingRefused : Prop :=
  (∀ (s : State) (i : Instr) (r : Refusal), exec i s ≠ .refused r) ∧
  (∀ (s : State) (r : Refusal), step s ≠ .refused r) ∧
  ∀ (s : State) (i : Instr) (f : Fault), exec i s = .fault f → ∃ off wide wr, i = .hostWindowAccess off wide wr ∧
    ∃ pa, f = .unassignedPhysical pa

/-- Words that the spec writes out beside the instructions they stand for, one or more of each family (R124, R128 and the encoding
tables of 06 to 16), and words that R125 refuses. -/
def Obligations.DecodedWords : Prop :=
  decode 0x01000000 0 = .ok .nop ∧
  decode 0x02060412 0 = .ok (.sadd 3 1 2 false true) ∧
  decode 0x030A17FA 0 = .ok (.saddi 5 5 0x1FD false) ∧
  decode 0x21FFFFF0 0 = .ok (.brs 0xFFFFF0) ∧
  decode 0x3B060040 0 = .ok (.wrsr 3 0x040) ∧
  decode 0x400E0F28 0 = .ok (.vadd 7 3 101 false false) ∧
  decode 0x44080412 0 = .ok (.vmad 4 1 2 false true false) ∧
  decode 0x71181D18 0 = .ok (.cvtn 12 7 2 3 false false) ∧
  decode 0x82119040 0 = .ok (.ldW 8 100 4 false) ∧
  decode 0x8A059806 0 = .ok (.ldAcqW 2 102 0 3 false) ∧
  decode 0x9804180B 0 = .ok (.atomAdd 2 6 1 3) ∧
  decode 0xA7013000 0 = .ok (.fence 2 3) ∧
  decode 0xB414000C 0 = .ok (.bwait 10 12) ∧
  decode 0xC5282128 0 = .ok (.tld 20 8 true 5 false false) ∧
  decode 0xCC1940CF 0 = .ok (.mma 3 5 1 2 true 7) ∧
  decode 0xD00A0098 0 = .ok (.bndrdStat 5 3) ∧
  decode 0xE20E0209 0 = .ok (.rwstat 7 0x41 true) ∧
  decode 0 0 = .error .fixedWord ∧ decode 0xFFFFFFFF 0 = .error .fixedWord ∧
  (∀ op : BitVec 8, op.toNat ∈ [0x00, 0x28, 0x2E, 0x2F, 0x3F, 0x6F, 0x76, 0x77, 0x7F] ∨ (0x5C ≤ op.toNat ∧ op.toNat ≤ 0x5F) ∨
      (0xD4 ≤ op.toNat ∧ op.toNat ≤ 0xDF) ∨ (0xE3 ≤ op.toNat ∧ op.toNat ≤ 0xE7) ∨ 0xEC ≤ op.toNat →
    decode (op ++ 1#24) 0 = .error .reservedOpcode) ∧
  decode (0x36#8 ++ 0#7 ++ 1#7 ++ 2#7 ++ 0#3) 0 = .error .unassignedFunc ∧
  decode (0x02#8 ++ 5#7 ++ 6#7 ++ 7#7 ++ 0#1 ++ 0#1 ++ 1#1) 0 = .error .unusedField ∧
  decode (0x02#8 ++ 64#7 ++ 6#7 ++ 7#7 ++ 0#3) 0 = .error .registerCode ∧
  decode (0x40#8 ++ 96#7 ++ 6#7 ++ 7#7 ++ 0#3) 0 = .error .registerCode ∧
  decode (0xE0#8 ++ 2#7 ++ 3#7 ++ 0#7 ++ 0#3) 0 = .error .registerCode ∧
  decode (0x8A#8 ++ 9#7 ++ 10#7 ++ 0#6 ++ 5#3 ++ 0#1) 0 = .error .scopeField

/-- A step whose task is a group's issue runs the instruction that the words at its PC decode to (R124, R142), and nothing but what every
issue adds: the slot's claim and the fetched line's use, the note of the instruction, the end of STEP, and the wake-ups of the end of a step. A word that is
refused on decode raises ILLEGAL_OP at its PC (R125). The word fetched is the one in memory where the cached line is. -/
def Obligations.StepRunsDecoded : Prop :=
  (∀ (s : State) (k : Nat) (w lit : Word), s.pick = some (.issue k) →
    let u := (s.tick.focus k).claimSlot
    let after := fun (t : State) => (if t.waited = true then t else t.issued k).finish
    (u.g.bpSkip = true ∨ u.cx.breakAt u.g.pc = none) → u.g.trc.startDue = false → u.fetchAt u.g.pc = .word w →
    (isRl w = false → lit = 0) → (isRl w = true → u.fetchAt (u.g.pc + 4) = .word lit) →
      (∀ d, decode w lit = .error d → step s = .next (after (u.raiseAt (illegal 0) u.g.pc))) ∧
      ∀ i t, decode w lit = .ok i → exec i u = .next t →
        let plain := t.waited = true ∨ t.g.key ≠ u.g.key
        let noted := t.note u.g.pc w u.g.exec t.g.lastCode.toNat false
        (plain → (roleOf w lit ≠ .entry ∨ u.cx.rules = []) → step s = .next (after t)) ∧
        (¬ plain → roleOf w lit ≠ .entry → step s = .next (after noted)) ∧
        (¬ plain → roleOf w lit = .entry → u.cx.rules = [] → u.cx.breakAt u.g.pc = none →
          step s = .next (after (((noted.graftAdd 0 1).graftAdd 3 0).graftAdd 4 0)))) ∧
  ∀ (s : State) (va : DWord) (pa : Nat) (e : TlbEntry) (l : ILine), va.toNat % 4 = 0 → pa % 4 = 0 →
    s.translate s.cx { agent := 5, core := s.g.core, later := true } va .exec = .hit pa e →
    (s.core s.g.core).iline s.g.ctx (lineOf pa) = some l → l.words = lineWords s.mem (lineOf pa) →
    l.bad.getLsbD (pa % 128 / 4) = false →
    s.fetchAt va = .word (BitVec.ofNat 32 (readNat s.mem pa 4))

/-- What reset leaves: the device's registers (R428, R433, R441), carve registers (R71), L2 quotas (R72), banks (R224, R336), handover
slots (R94) and frame descriptors (R33). That memory lists nothing, so that a byte outside the descriptors reads 0, is the model's
choice of assumption log 1. -/
def Obligations.ResetValues : Prop :=
  let s := State.reset
  s.dev.devstat = 0 ∧ s.dev.sqbase = 0 ∧ s.dev.winbase = 0 ∧ s.dev.pkgid = 0 ∧ s.dev.sqsize = 16 ∧ s.dev.jbase = 0 ∧
  s.dev.jseq = 1 ∧ (∀ j, SMap.get 0 s.dev.meas j = 0) ∧ s.groups = [] ∧ s.allTeams = [] ∧ s.allCtxs = [] ∧
  (∀ k, (s.core k).level = 2 ∧ (s.core k).lend = true ∧ (s.core k).spways = 0 ∧ (s.core k).l1Ways = 16 ∧ (s.core k).defer = 0) ∧
  (∀ d, (s.die d).quotaRefused = false ∧ ∀ c, c < 4 → quotaMin (s.die d).l2quota c = 0 ∧ quotaMax (s.die d).l2quota c = 16) ∧
  (∀ a n, (s.bank a n).owner = none ∧ (s.bank a n).bnd = 0x7F800000 ∧ (s.bank a n).status = 0) ∧
  (∀ a p, s.planes a p = {}) ∧ (∀ n, (s.hoSlot n).status = 0) ∧
  memWf s.mem = true ∧ (∀ f, f < 12 * 2 ^ 20 → s.frameLink f = 0xFFFFFFFF ∧ s.refcnt f = 0 ∧ s.frameCtx f = 0) ∧
  ∀ a, a < Config.fdtBase ∨ Config.fdtBase + Config.fdtBytes ≤ a → readByte s.mem a = 0

end
end

