-- ==== Sys2Proof/Laws/State.lean ====
section
/-! SUPPORT. One lemma per field per update of the state and of a group: what each named update leaves as it is. -/

namespace Sys2Proof.Machine

/-! `State.modG` -/

@[simp] theorem State.modG_others (s : State) (f : Group → Group) : (s.modG f).others = s.others := rfl
@[simp] theorem State.modG_tm (s : State) (f : Group → Group) : (s.modG f).tm = s.tm := rfl
@[simp] theorem State.modG_teams (s : State) (f : Group → Group) : (s.modG f).teams = s.teams := rfl
@[simp] theorem State.modG_cx (s : State) (f : Group → Group) : (s.modG f).cx = s.cx := rfl
@[simp] theorem State.modG_ctxs (s : State) (f : Group → Group) : (s.modG f).ctxs = s.ctxs := rfl
@[simp] theorem State.modG_mem (s : State) (f : Group → Group) : (s.modG f).mem = s.mem := rfl
@[simp] theorem State.modG_cores (s : State) (f : Group → Group) : (s.modG f).cores = s.cores := rfl
@[simp] theorem State.modG_groves (s : State) (f : Group → Group) : (s.modG f).groves = s.groves := rfl
@[simp] theorem State.modG_arrays (s : State) (f : Group → Group) : (s.modG f).arrays = s.arrays := rfl
@[simp] theorem State.modG_dies (s : State) (f : Group → Group) : (s.modG f).dies = s.dies := rfl
@[simp] theorem State.modG_engs (s : State) (f : Group → Group) : (s.modG f).engs = s.engs := rfl
@[simp] theorem State.modG_subs (s : State) (f : Group → Group) : (s.modG f).subs = s.subs := rfl
@[simp] theorem State.modG_tops (s : State) (f : Group → Group) : (s.modG f).tops = s.tops := rfl
@[simp] theorem State.modG_walks (s : State) (f : Group → Group) : (s.modG f).walks = s.walks := rfl
@[simp] theorem State.modG_fills (s : State) (f : Group → Group) : (s.modG f).fills = s.fills := rfl
@[simp] theorem State.modG_shoots (s : State) (f : Group → Group) : (s.modG f).shoots = s.shoots := rfl
@[simp] theorem State.modG_coh (s : State) (f : Group → Group) : (s.modG f).coh = s.coh := rfl
@[simp] theorem State.modG_pend (s : State) (f : Group → Group) : (s.modG f).pend = s.pend := rfl
@[simp] theorem State.modG_rootTlb (s : State) (f : Group → Group) : (s.modG f).rootTlb = s.rootTlb := rfl
@[simp] theorem State.modG_rootGens (s : State) (f : Group → Group) : (s.modG f).rootGens = s.rootGens := rfl
@[simp] theorem State.modG_fab (s : State) (f : Group → Group) : (s.modG f).fab = s.fab := rfl
@[simp] theorem State.modG_fabOut (s : State) (f : Group → Group) : (s.modG f).fabOut = s.fabOut := rfl
@[simp] theorem State.modG_dev (s : State) (f : Group → Group) : (s.modG f).dev = s.dev := rfl
@[simp] theorem State.modG_fresh (s : State) (f : Group → Group) : (s.modG f).fresh = s.fresh := rfl
@[simp] theorem State.modG_freeCtr (s : State) (f : Group → Group) : (s.modG f).freeCtr = s.freeCtr := rfl
@[simp] theorem State.modG_steps (s : State) (f : Group → Group) : (s.modG f).steps = s.steps := rfl
@[simp] theorem State.modG_schedule (s : State) (f : Group → Group) : (s.modG f).schedule = s.schedule := rfl
@[simp] theorem State.modG_inputs (s : State) (f : Group → Group) : (s.modG f).inputs = s.inputs := rfl
@[simp] theorem State.modG_soft (s : State) (f : Group → Group) : (s.modG f).soft = s.soft := rfl

@[simp] theorem State.modG_g (s : State) (f : Group → Group) : (s.modG f).g = f s.g := rfl
/-! `State.modTm` -/

@[simp] theorem State.modTm_g (s : State) (f : Team → Team) : (s.modTm f).g = s.g := rfl
@[simp] theorem State.modTm_others (s : State) (f : Team → Team) : (s.modTm f).others = s.others := rfl
@[simp] theorem State.modTm_teams (s : State) (f : Team → Team) : (s.modTm f).teams = s.teams := rfl
@[simp] theorem State.modTm_cx (s : State) (f : Team → Team) : (s.modTm f).cx = s.cx := rfl
@[simp] theorem State.modTm_ctxs (s : State) (f : Team → Team) : (s.modTm f).ctxs = s.ctxs := rfl
@[simp] theorem State.modTm_mem (s : State) (f : Team → Team) : (s.modTm f).mem = s.mem := rfl
@[simp] theorem State.modTm_cores (s : State) (f : Team → Team) : (s.modTm f).cores = s.cores := rfl
@[simp] theorem State.modTm_groves (s : State) (f : Team → Team) : (s.modTm f).groves = s.groves := rfl
@[simp] theorem State.modTm_arrays (s : State) (f : Team → Team) : (s.modTm f).arrays = s.arrays := rfl
@[simp] theorem State.modTm_dies (s : State) (f : Team → Team) : (s.modTm f).dies = s.dies := rfl
@[simp] theorem State.modTm_engs (s : State) (f : Team → Team) : (s.modTm f).engs = s.engs := rfl
@[simp] theorem State.modTm_subs (s : State) (f : Team → Team) : (s.modTm f).subs = s.subs := rfl
@[simp] theorem State.modTm_tops (s : State) (f : Team → Team) : (s.modTm f).tops = s.tops := rfl
@[simp] theorem State.modTm_walks (s : State) (f : Team → Team) : (s.modTm f).walks = s.walks := rfl
@[simp] theorem State.modTm_fills (s : State) (f : Team → Team) : (s.modTm f).fills = s.fills := rfl
@[simp] theorem State.modTm_shoots (s : State) (f : Team → Team) : (s.modTm f).shoots = s.shoots := rfl
@[simp] theorem State.modTm_coh (s : State) (f : Team → Team) : (s.modTm f).coh = s.coh := rfl
@[simp] theorem State.modTm_pend (s : State) (f : Team → Team) : (s.modTm f).pend = s.pend := rfl
@[simp] theorem State.modTm_rootTlb (s : State) (f : Team → Team) : (s.modTm f).rootTlb = s.rootTlb := rfl
@[simp] theorem State.modTm_rootGens (s : State) (f : Team → Team) : (s.modTm f).rootGens = s.rootGens := rfl
@[simp] theorem State.modTm_fab (s : State) (f : Team → Team) : (s.modTm f).fab = s.fab := rfl
@[simp] theorem State.modTm_fabOut (s : State) (f : Team → Team) : (s.modTm f).fabOut = s.fabOut := rfl
@[simp] theorem State.modTm_dev (s : State) (f : Team → Team) : (s.modTm f).dev = s.dev := rfl
@[simp] theorem State.modTm_fresh (s : State) (f : Team → Team) : (s.modTm f).fresh = s.fresh := rfl
@[simp] theorem State.modTm_freeCtr (s : State) (f : Team → Team) : (s.modTm f).freeCtr = s.freeCtr := rfl
@[simp] theorem State.modTm_steps (s : State) (f : Team → Team) : (s.modTm f).steps = s.steps := rfl
@[simp] theorem State.modTm_schedule (s : State) (f : Team → Team) : (s.modTm f).schedule = s.schedule := rfl
@[simp] theorem State.modTm_inputs (s : State) (f : Team → Team) : (s.modTm f).inputs = s.inputs := rfl
@[simp] theorem State.modTm_soft (s : State) (f : Team → Team) : (s.modTm f).soft = s.soft := rfl

@[simp] theorem State.modTm_tm (s : State) (f : Team → Team) : (s.modTm f).tm = f s.tm := rfl
/-! `State.modCx` -/

@[simp] theorem State.modCx_g (s : State) (f : Ctx → Ctx) : (s.modCx f).g = s.g := rfl
@[simp] theorem State.modCx_others (s : State) (f : Ctx → Ctx) : (s.modCx f).others = s.others := rfl
@[simp] theorem State.modCx_tm (s : State) (f : Ctx → Ctx) : (s.modCx f).tm = s.tm := rfl
@[simp] theorem State.modCx_teams (s : State) (f : Ctx → Ctx) : (s.modCx f).teams = s.teams := rfl
@[simp] theorem State.modCx_ctxs (s : State) (f : Ctx → Ctx) : (s.modCx f).ctxs = s.ctxs := rfl
@[simp] theorem State.modCx_mem (s : State) (f : Ctx → Ctx) : (s.modCx f).mem = s.mem := rfl
@[simp] theorem State.modCx_cores (s : State) (f : Ctx → Ctx) : (s.modCx f).cores = s.cores := rfl
@[simp] theorem State.modCx_groves (s : State) (f : Ctx → Ctx) : (s.modCx f).groves = s.groves := rfl
@[simp] theorem State.modCx_arrays (s : State) (f : Ctx → Ctx) : (s.modCx f).arrays = s.arrays := rfl
@[simp] theorem State.modCx_dies (s : State) (f : Ctx → Ctx) : (s.modCx f).dies = s.dies := rfl
@[simp] theorem State.modCx_engs (s : State) (f : Ctx → Ctx) : (s.modCx f).engs = s.engs := rfl
@[simp] theorem State.modCx_subs (s : State) (f : Ctx → Ctx) : (s.modCx f).subs = s.subs := rfl
@[simp] theorem State.modCx_tops (s : State) (f : Ctx → Ctx) : (s.modCx f).tops = s.tops := rfl
@[simp] theorem State.modCx_walks (s : State) (f : Ctx → Ctx) : (s.modCx f).walks = s.walks := rfl
@[simp] theorem State.modCx_fills (s : State) (f : Ctx → Ctx) : (s.modCx f).fills = s.fills := rfl
@[simp] theorem State.modCx_shoots (s : State) (f : Ctx → Ctx) : (s.modCx f).shoots = s.shoots := rfl
@[simp] theorem State.modCx_coh (s : State) (f : Ctx → Ctx) : (s.modCx f).coh = s.coh := rfl
@[simp] theorem State.modCx_pend (s : State) (f : Ctx → Ctx) : (s.modCx f).pend = s.pend := rfl
@[simp] theorem State.modCx_rootTlb (s : State) (f : Ctx → Ctx) : (s.modCx f).rootTlb = s.rootTlb := rfl
@[simp] theorem State.modCx_rootGens (s : State) (f : Ctx → Ctx) : (s.modCx f).rootGens = s.rootGens := rfl
@[simp] theorem State.modCx_fab (s : State) (f : Ctx → Ctx) : (s.modCx f).fab = s.fab := rfl
@[simp] theorem State.modCx_fabOut (s : State) (f : Ctx → Ctx) : (s.modCx f).fabOut = s.fabOut := rfl
@[simp] theorem State.modCx_dev (s : State) (f : Ctx → Ctx) : (s.modCx f).dev = s.dev := rfl
@[simp] theorem State.modCx_fresh (s : State) (f : Ctx → Ctx) : (s.modCx f).fresh = s.fresh := rfl
@[simp] theorem State.modCx_freeCtr (s : State) (f : Ctx → Ctx) : (s.modCx f).freeCtr = s.freeCtr := rfl
@[simp] theorem State.modCx_steps (s : State) (f : Ctx → Ctx) : (s.modCx f).steps = s.steps := rfl
@[simp] theorem State.modCx_schedule (s : State) (f : Ctx → Ctx) : (s.modCx f).schedule = s.schedule := rfl
@[simp] theorem State.modCx_inputs (s : State) (f : Ctx → Ctx) : (s.modCx f).inputs = s.inputs := rfl
@[simp] theorem State.modCx_soft (s : State) (f : Ctx → Ctx) : (s.modCx f).soft = s.soft := rfl

@[simp] theorem State.modCx_cx (s : State) (f : Ctx → Ctx) : (s.modCx f).cx = f s.cx := rfl
/-! `State.modCore` -/

@[simp] theorem State.modCore_g (s : State) (c : Nat) (f : Core → Core) : (s.modCore c f).g = s.g := rfl
@[simp] theorem State.modCore_others (s : State) (c : Nat) (f : Core → Core) : (s.modCore c f).others = s.others := rfl
@[simp] theorem State.modCore_tm (s : State) (c : Nat) (f : Core → Core) : (s.modCore c f).tm = s.tm := rfl
@[simp] theorem State.modCore_teams (s : State) (c : Nat) (f : Core → Core) : (s.modCore c f).teams = s.teams := rfl
@[simp] theorem State.modCore_cx (s : State) (c : Nat) (f : Core → Core) : (s.modCore c f).cx = s.cx := rfl
@[simp] theorem State.modCore_ctxs (s : State) (c : Nat) (f : Core → Core) : (s.modCore c f).ctxs = s.ctxs := rfl
@[simp] theorem State.modCore_mem (s : State) (c : Nat) (f : Core → Core) : (s.modCore c f).mem = s.mem := rfl
@[simp] theorem State.modCore_groves (s : State) (c : Nat) (f : Core → Core) : (s.modCore c f).groves = s.groves := rfl
@[simp] theorem State.modCore_arrays (s : State) (c : Nat) (f : Core → Core) : (s.modCore c f).arrays = s.arrays := rfl
@[simp] theorem State.modCore_dies (s : State) (c : Nat) (f : Core → Core) : (s.modCore c f).dies = s.dies := rfl
@[simp] theorem State.modCore_engs (s : State) (c : Nat) (f : Core → Core) : (s.modCore c f).engs = s.engs := rfl
@[simp] theorem State.modCore_subs (s : State) (c : Nat) (f : Core → Core) : (s.modCore c f).subs = s.subs := rfl
@[simp] theorem State.modCore_tops (s : State) (c : Nat) (f : Core → Core) : (s.modCore c f).tops = s.tops := rfl
@[simp] theorem State.modCore_walks (s : State) (c : Nat) (f : Core → Core) : (s.modCore c f).walks = s.walks := rfl
@[simp] theorem State.modCore_fills (s : State) (c : Nat) (f : Core → Core) : (s.modCore c f).fills = s.fills := rfl
@[simp] theorem State.modCore_shoots (s : State) (c : Nat) (f : Core → Core) : (s.modCore c f).shoots = s.shoots := rfl
@[simp] theorem State.modCore_coh (s : State) (c : Nat) (f : Core → Core) : (s.modCore c f).coh = s.coh := rfl
@[simp] theorem State.modCore_pend (s : State) (c : Nat) (f : Core → Core) : (s.modCore c f).pend = s.pend := rfl
@[simp] theorem State.modCore_rootTlb (s : State) (c : Nat) (f : Core → Core) : (s.modCore c f).rootTlb = s.rootTlb := rfl
@[simp] theorem State.modCore_rootGens (s : State) (c : Nat) (f : Core → Core) : (s.modCore c f).rootGens = s.rootGens := rfl
@[simp] theorem State.modCore_fab (s : State) (c : Nat) (f : Core → Core) : (s.modCore c f).fab = s.fab := rfl
@[simp] theorem State.modCore_fabOut (s : State) (c : Nat) (f : Core → Core) : (s.modCore c f).fabOut = s.fabOut := rfl
@[simp] theorem State.modCore_dev (s : State) (c : Nat) (f : Core → Core) : (s.modCore c f).dev = s.dev := rfl
@[simp] theorem State.modCore_fresh (s : State) (c : Nat) (f : Core → Core) : (s.modCore c f).fresh = s.fresh := rfl
@[simp] theorem State.modCore_freeCtr (s : State) (c : Nat) (f : Core → Core) : (s.modCore c f).freeCtr = s.freeCtr := rfl
@[simp] theorem State.modCore_steps (s : State) (c : Nat) (f : Core → Core) : (s.modCore c f).steps = s.steps := rfl
@[simp] theorem State.modCore_schedule (s : State) (c : Nat) (f : Core → Core) : (s.modCore c f).schedule = s.schedule := rfl
@[simp] theorem State.modCore_inputs (s : State) (c : Nat) (f : Core → Core) : (s.modCore c f).inputs = s.inputs := rfl
@[simp] theorem State.modCore_soft (s : State) (c : Nat) (f : Core → Core) : (s.modCore c f).soft = s.soft := rfl

/-! `State.modGrove` -/

@[simp] theorem State.modGrove_g (s : State) (n : Nat) (f : Grove → Grove) : (s.modGrove n f).g = s.g := rfl
@[simp] theorem State.modGrove_others (s : State) (n : Nat) (f : Grove → Grove) : (s.modGrove n f).others = s.others := rfl
@[simp] theorem State.modGrove_tm (s : State) (n : Nat) (f : Grove → Grove) : (s.modGrove n f).tm = s.tm := rfl
@[simp] theorem State.modGrove_teams (s : State) (n : Nat) (f : Grove → Grove) : (s.modGrove n f).teams = s.teams := rfl
@[simp] theorem State.modGrove_cx (s : State) (n : Nat) (f : Grove → Grove) : (s.modGrove n f).cx = s.cx := rfl
@[simp] theorem State.modGrove_ctxs (s : State) (n : Nat) (f : Grove → Grove) : (s.modGrove n f).ctxs = s.ctxs := rfl
@[simp] theorem State.modGrove_mem (s : State) (n : Nat) (f : Grove → Grove) : (s.modGrove n f).mem = s.mem := rfl
@[simp] theorem State.modGrove_cores (s : State) (n : Nat) (f : Grove → Grove) : (s.modGrove n f).cores = s.cores := rfl
@[simp] theorem State.modGrove_arrays (s : State) (n : Nat) (f : Grove → Grove) : (s.modGrove n f).arrays = s.arrays := rfl
@[simp] theorem State.modGrove_dies (s : State) (n : Nat) (f : Grove → Grove) : (s.modGrove n f).dies = s.dies := rfl
@[simp] theorem State.modGrove_engs (s : State) (n : Nat) (f : Grove → Grove) : (s.modGrove n f).engs = s.engs := rfl
@[simp] theorem State.modGrove_subs (s : State) (n : Nat) (f : Grove → Grove) : (s.modGrove n f).subs = s.subs := rfl
@[simp] theorem State.modGrove_tops (s : State) (n : Nat) (f : Grove → Grove) : (s.modGrove n f).tops = s.tops := rfl
@[simp] theorem State.modGrove_walks (s : State) (n : Nat) (f : Grove → Grove) : (s.modGrove n f).walks = s.walks := rfl
@[simp] theorem State.modGrove_fills (s : State) (n : Nat) (f : Grove → Grove) : (s.modGrove n f).fills = s.fills := rfl
@[simp] theorem State.modGrove_shoots (s : State) (n : Nat) (f : Grove → Grove) : (s.modGrove n f).shoots = s.shoots := rfl
@[simp] theorem State.modGrove_coh (s : State) (n : Nat) (f : Grove → Grove) : (s.modGrove n f).coh = s.coh := rfl
@[simp] theorem State.modGrove_pend (s : State) (n : Nat) (f : Grove → Grove) : (s.modGrove n f).pend = s.pend := rfl
@[simp] theorem State.modGrove_rootTlb (s : State) (n : Nat) (f : Grove → Grove) : (s.modGrove n f).rootTlb = s.rootTlb := rfl
@[simp] theorem State.modGrove_rootGens (s : State) (n : Nat) (f : Grove → Grove) : (s.modGrove n f).rootGens = s.rootGens := rfl
@[simp] theorem State.modGrove_fab (s : State) (n : Nat) (f : Grove → Grove) : (s.modGrove n f).fab = s.fab := rfl
@[simp] theorem State.modGrove_fabOut (s : State) (n : Nat) (f : Grove → Grove) : (s.modGrove n f).fabOut = s.fabOut := rfl
@[simp] theorem State.modGrove_dev (s : State) (n : Nat) (f : Grove → Grove) : (s.modGrove n f).dev = s.dev := rfl
@[simp] theorem State.modGrove_fresh (s : State) (n : Nat) (f : Grove → Grove) : (s.modGrove n f).fresh = s.fresh := rfl
@[simp] theorem State.modGrove_freeCtr (s : State) (n : Nat) (f : Grove → Grove) : (s.modGrove n f).freeCtr = s.freeCtr := rfl
@[simp] theorem State.modGrove_steps (s : State) (n : Nat) (f : Grove → Grove) : (s.modGrove n f).steps = s.steps := rfl
@[simp] theorem State.modGrove_schedule (s : State) (n : Nat) (f : Grove → Grove) : (s.modGrove n f).schedule = s.schedule := rfl
@[simp] theorem State.modGrove_inputs (s : State) (n : Nat) (f : Grove → Grove) : (s.modGrove n f).inputs = s.inputs := rfl
@[simp] theorem State.modGrove_soft (s : State) (n : Nat) (f : Grove → Grove) : (s.modGrove n f).soft = s.soft := rfl

/-! `State.modArray` -/

@[simp] theorem State.modArray_g (s : State) (n : Nat) (f : ArrayUnit → ArrayUnit) : (s.modArray n f).g = s.g := rfl
@[simp] theorem State.modArray_others (s : State) (n : Nat) (f : ArrayUnit → ArrayUnit) : (s.modArray n f).others = s.others := rfl
@[simp] theorem State.modArray_tm (s : State) (n : Nat) (f : ArrayUnit → ArrayUnit) : (s.modArray n f).tm = s.tm := rfl
@[simp] theorem State.modArray_teams (s : State) (n : Nat) (f : ArrayUnit → ArrayUnit) : (s.modArray n f).teams = s.teams := rfl
@[simp] theorem State.modArray_cx (s : State) (n : Nat) (f : ArrayUnit → ArrayUnit) : (s.modArray n f).cx = s.cx := rfl
@[simp] theorem State.modArray_ctxs (s : State) (n : Nat) (f : ArrayUnit → ArrayUnit) : (s.modArray n f).ctxs = s.ctxs := rfl
@[simp] theorem State.modArray_mem (s : State) (n : Nat) (f : ArrayUnit → ArrayUnit) : (s.modArray n f).mem = s.mem := rfl
@[simp] theorem State.modArray_cores (s : State) (n : Nat) (f : ArrayUnit → ArrayUnit) : (s.modArray n f).cores = s.cores := rfl
@[simp] theorem State.modArray_groves (s : State) (n : Nat) (f : ArrayUnit → ArrayUnit) : (s.modArray n f).groves = s.groves := rfl
@[simp] theorem State.modArray_dies (s : State) (n : Nat) (f : ArrayUnit → ArrayUnit) : (s.modArray n f).dies = s.dies := rfl
@[simp] theorem State.modArray_engs (s : State) (n : Nat) (f : ArrayUnit → ArrayUnit) : (s.modArray n f).engs = s.engs := rfl
@[simp] theorem State.modArray_subs (s : State) (n : Nat) (f : ArrayUnit → ArrayUnit) : (s.modArray n f).subs = s.subs := rfl
@[simp] theorem State.modArray_tops (s : State) (n : Nat) (f : ArrayUnit → ArrayUnit) : (s.modArray n f).tops = s.tops := rfl
@[simp] theorem State.modArray_walks (s : State) (n : Nat) (f : ArrayUnit → ArrayUnit) : (s.modArray n f).walks = s.walks := rfl
@[simp] theorem State.modArray_fills (s : State) (n : Nat) (f : ArrayUnit → ArrayUnit) : (s.modArray n f).fills = s.fills := rfl
@[simp] theorem State.modArray_shoots (s : State) (n : Nat) (f : ArrayUnit → ArrayUnit) : (s.modArray n f).shoots = s.shoots := rfl
@[simp] theorem State.modArray_coh (s : State) (n : Nat) (f : ArrayUnit → ArrayUnit) : (s.modArray n f).coh = s.coh := rfl
@[simp] theorem State.modArray_pend (s : State) (n : Nat) (f : ArrayUnit → ArrayUnit) : (s.modArray n f).pend = s.pend := rfl
@[simp] theorem State.modArray_rootTlb (s : State) (n : Nat) (f : ArrayUnit → ArrayUnit) : (s.modArray n f).rootTlb = s.rootTlb := rfl
@[simp] theorem State.modArray_rootGens (s : State) (n : Nat) (f : ArrayUnit → ArrayUnit) : (s.modArray n f).rootGens = s.rootGens := rfl
@[simp] theorem State.modArray_fab (s : State) (n : Nat) (f : ArrayUnit → ArrayUnit) : (s.modArray n f).fab = s.fab := rfl
@[simp] theorem State.modArray_fabOut (s : State) (n : Nat) (f : ArrayUnit → ArrayUnit) : (s.modArray n f).fabOut = s.fabOut := rfl
@[simp] theorem State.modArray_dev (s : State) (n : Nat) (f : ArrayUnit → ArrayUnit) : (s.modArray n f).dev = s.dev := rfl
@[simp] theorem State.modArray_fresh (s : State) (n : Nat) (f : ArrayUnit → ArrayUnit) : (s.modArray n f).fresh = s.fresh := rfl
@[simp] theorem State.modArray_freeCtr (s : State) (n : Nat) (f : ArrayUnit → ArrayUnit) : (s.modArray n f).freeCtr = s.freeCtr := rfl
@[simp] theorem State.modArray_steps (s : State) (n : Nat) (f : ArrayUnit → ArrayUnit) : (s.modArray n f).steps = s.steps := rfl
@[simp] theorem State.modArray_schedule (s : State) (n : Nat) (f : ArrayUnit → ArrayUnit) : (s.modArray n f).schedule = s.schedule := rfl
@[simp] theorem State.modArray_inputs (s : State) (n : Nat) (f : ArrayUnit → ArrayUnit) : (s.modArray n f).inputs = s.inputs := rfl
@[simp] theorem State.modArray_soft (s : State) (n : Nat) (f : ArrayUnit → ArrayUnit) : (s.modArray n f).soft = s.soft := rfl

/-! `State.modDie` -/

@[simp] theorem State.modDie_g (s : State) (d : Nat) (f : Die → Die) : (s.modDie d f).g = s.g := rfl
@[simp] theorem State.modDie_others (s : State) (d : Nat) (f : Die → Die) : (s.modDie d f).others = s.others := rfl
@[simp] theorem State.modDie_tm (s : State) (d : Nat) (f : Die → Die) : (s.modDie d f).tm = s.tm := rfl
@[simp] theorem State.modDie_teams (s : State) (d : Nat) (f : Die → Die) : (s.modDie d f).teams = s.teams := rfl
@[simp] theorem State.modDie_cx (s : State) (d : Nat) (f : Die → Die) : (s.modDie d f).cx = s.cx := rfl
@[simp] theorem State.modDie_ctxs (s : State) (d : Nat) (f : Die → Die) : (s.modDie d f).ctxs = s.ctxs := rfl
@[simp] theorem State.modDie_mem (s : State) (d : Nat) (f : Die → Die) : (s.modDie d f).mem = s.mem := rfl
@[simp] theorem State.modDie_cores (s : State) (d : Nat) (f : Die → Die) : (s.modDie d f).cores = s.cores := rfl
@[simp] theorem State.modDie_groves (s : State) (d : Nat) (f : Die → Die) : (s.modDie d f).groves = s.groves := rfl
@[simp] theorem State.modDie_arrays (s : State) (d : Nat) (f : Die → Die) : (s.modDie d f).arrays = s.arrays := rfl
@[simp] theorem State.modDie_engs (s : State) (d : Nat) (f : Die → Die) : (s.modDie d f).engs = s.engs := rfl
@[simp] theorem State.modDie_subs (s : State) (d : Nat) (f : Die → Die) : (s.modDie d f).subs = s.subs := rfl
@[simp] theorem State.modDie_tops (s : State) (d : Nat) (f : Die → Die) : (s.modDie d f).tops = s.tops := rfl
@[simp] theorem State.modDie_walks (s : State) (d : Nat) (f : Die → Die) : (s.modDie d f).walks = s.walks := rfl
@[simp] theorem State.modDie_fills (s : State) (d : Nat) (f : Die → Die) : (s.modDie d f).fills = s.fills := rfl
@[simp] theorem State.modDie_shoots (s : State) (d : Nat) (f : Die → Die) : (s.modDie d f).shoots = s.shoots := rfl
@[simp] theorem State.modDie_coh (s : State) (d : Nat) (f : Die → Die) : (s.modDie d f).coh = s.coh := rfl
@[simp] theorem State.modDie_pend (s : State) (d : Nat) (f : Die → Die) : (s.modDie d f).pend = s.pend := rfl
@[simp] theorem State.modDie_rootTlb (s : State) (d : Nat) (f : Die → Die) : (s.modDie d f).rootTlb = s.rootTlb := rfl
@[simp] theorem State.modDie_rootGens (s : State) (d : Nat) (f : Die → Die) : (s.modDie d f).rootGens = s.rootGens := rfl
@[simp] theorem State.modDie_fab (s : State) (d : Nat) (f : Die → Die) : (s.modDie d f).fab = s.fab := rfl
@[simp] theorem State.modDie_fabOut (s : State) (d : Nat) (f : Die → Die) : (s.modDie d f).fabOut = s.fabOut := rfl
@[simp] theorem State.modDie_dev (s : State) (d : Nat) (f : Die → Die) : (s.modDie d f).dev = s.dev := rfl
@[simp] theorem State.modDie_fresh (s : State) (d : Nat) (f : Die → Die) : (s.modDie d f).fresh = s.fresh := rfl
@[simp] theorem State.modDie_freeCtr (s : State) (d : Nat) (f : Die → Die) : (s.modDie d f).freeCtr = s.freeCtr := rfl
@[simp] theorem State.modDie_steps (s : State) (d : Nat) (f : Die → Die) : (s.modDie d f).steps = s.steps := rfl
@[simp] theorem State.modDie_schedule (s : State) (d : Nat) (f : Die → Die) : (s.modDie d f).schedule = s.schedule := rfl
@[simp] theorem State.modDie_inputs (s : State) (d : Nat) (f : Die → Die) : (s.modDie d f).inputs = s.inputs := rfl
@[simp] theorem State.modDie_soft (s : State) (d : Nat) (f : Die → Die) : (s.modDie d f).soft = s.soft := rfl

/-! `State.clearFab` -/

@[simp] theorem State.clearFab_g (s : State)  : (s.clearFab ).g = s.g := rfl
@[simp] theorem State.clearFab_others (s : State)  : (s.clearFab ).others = s.others := rfl
@[simp] theorem State.clearFab_tm (s : State)  : (s.clearFab ).tm = s.tm := rfl
@[simp] theorem State.clearFab_teams (s : State)  : (s.clearFab ).teams = s.teams := rfl
@[simp] theorem State.clearFab_cx (s : State)  : (s.clearFab ).cx = s.cx := rfl
@[simp] theorem State.clearFab_ctxs (s : State)  : (s.clearFab ).ctxs = s.ctxs := rfl
@[simp] theorem State.clearFab_mem (s : State)  : (s.clearFab ).mem = s.mem := rfl
@[simp] theorem State.clearFab_cores (s : State)  : (s.clearFab ).cores = s.cores := rfl
@[simp] theorem State.clearFab_groves (s : State)  : (s.clearFab ).groves = s.groves := rfl
@[simp] theorem State.clearFab_arrays (s : State)  : (s.clearFab ).arrays = s.arrays := rfl
@[simp] theorem State.clearFab_dies (s : State)  : (s.clearFab ).dies = s.dies := rfl
@[simp] theorem State.clearFab_engs (s : State)  : (s.clearFab ).engs = s.engs := rfl
@[simp] theorem State.clearFab_subs (s : State)  : (s.clearFab ).subs = s.subs := rfl
@[simp] theorem State.clearFab_tops (s : State)  : (s.clearFab ).tops = s.tops := rfl
@[simp] theorem State.clearFab_walks (s : State)  : (s.clearFab ).walks = s.walks := rfl
@[simp] theorem State.clearFab_fills (s : State)  : (s.clearFab ).fills = s.fills := rfl
@[simp] theorem State.clearFab_shoots (s : State)  : (s.clearFab ).shoots = s.shoots := rfl
@[simp] theorem State.clearFab_coh (s : State)  : (s.clearFab ).coh = s.coh := rfl
@[simp] theorem State.clearFab_pend (s : State)  : (s.clearFab ).pend = s.pend := rfl
@[simp] theorem State.clearFab_rootTlb (s : State)  : (s.clearFab ).rootTlb = s.rootTlb := rfl
@[simp] theorem State.clearFab_rootGens (s : State)  : (s.clearFab ).rootGens = s.rootGens := rfl
@[simp] theorem State.clearFab_fabOut (s : State)  : (s.clearFab ).fabOut = s.fabOut := rfl
@[simp] theorem State.clearFab_dev (s : State)  : (s.clearFab ).dev = s.dev := rfl
@[simp] theorem State.clearFab_fresh (s : State)  : (s.clearFab ).fresh = s.fresh := rfl
@[simp] theorem State.clearFab_freeCtr (s : State)  : (s.clearFab ).freeCtr = s.freeCtr := rfl
@[simp] theorem State.clearFab_steps (s : State)  : (s.clearFab ).steps = s.steps := rfl
@[simp] theorem State.clearFab_schedule (s : State)  : (s.clearFab ).schedule = s.schedule := rfl
@[simp] theorem State.clearFab_inputs (s : State)  : (s.clearFab ).inputs = s.inputs := rfl
@[simp] theorem State.clearFab_soft (s : State)  : (s.clearFab ).soft = s.soft := rfl

/-! `State.waitAt` -/

@[simp] theorem State.waitAt_others (s : State) (why : Reason) (w : Wait) : (s.waitAt why w).others = s.others := rfl
@[simp] theorem State.waitAt_tm (s : State) (why : Reason) (w : Wait) : (s.waitAt why w).tm = s.tm := rfl
@[simp] theorem State.waitAt_teams (s : State) (why : Reason) (w : Wait) : (s.waitAt why w).teams = s.teams := rfl
@[simp] theorem State.waitAt_cx (s : State) (why : Reason) (w : Wait) : (s.waitAt why w).cx = s.cx := rfl
@[simp] theorem State.waitAt_ctxs (s : State) (why : Reason) (w : Wait) : (s.waitAt why w).ctxs = s.ctxs := rfl
@[simp] theorem State.waitAt_mem (s : State) (why : Reason) (w : Wait) : (s.waitAt why w).mem = s.mem := rfl
@[simp] theorem State.waitAt_cores (s : State) (why : Reason) (w : Wait) : (s.waitAt why w).cores = s.cores := rfl
@[simp] theorem State.waitAt_groves (s : State) (why : Reason) (w : Wait) : (s.waitAt why w).groves = s.groves := rfl
@[simp] theorem State.waitAt_arrays (s : State) (why : Reason) (w : Wait) : (s.waitAt why w).arrays = s.arrays := rfl
@[simp] theorem State.waitAt_dies (s : State) (why : Reason) (w : Wait) : (s.waitAt why w).dies = s.dies := rfl
@[simp] theorem State.waitAt_engs (s : State) (why : Reason) (w : Wait) : (s.waitAt why w).engs = s.engs := rfl
@[simp] theorem State.waitAt_subs (s : State) (why : Reason) (w : Wait) : (s.waitAt why w).subs = s.subs := rfl
@[simp] theorem State.waitAt_tops (s : State) (why : Reason) (w : Wait) : (s.waitAt why w).tops = s.tops := rfl
@[simp] theorem State.waitAt_walks (s : State) (why : Reason) (w : Wait) : (s.waitAt why w).walks = s.walks := rfl
@[simp] theorem State.waitAt_fills (s : State) (why : Reason) (w : Wait) : (s.waitAt why w).fills = s.fills := rfl
@[simp] theorem State.waitAt_shoots (s : State) (why : Reason) (w : Wait) : (s.waitAt why w).shoots = s.shoots := rfl
@[simp] theorem State.waitAt_coh (s : State) (why : Reason) (w : Wait) : (s.waitAt why w).coh = s.coh := rfl
@[simp] theorem State.waitAt_pend (s : State) (why : Reason) (w : Wait) : (s.waitAt why w).pend = s.pend := rfl
@[simp] theorem State.waitAt_rootTlb (s : State) (why : Reason) (w : Wait) : (s.waitAt why w).rootTlb = s.rootTlb := rfl
@[simp] theorem State.waitAt_rootGens (s : State) (why : Reason) (w : Wait) : (s.waitAt why w).rootGens = s.rootGens := rfl
@[simp] theorem State.waitAt_fab (s : State) (why : Reason) (w : Wait) : (s.waitAt why w).fab = s.fab := rfl
@[simp] theorem State.waitAt_fabOut (s : State) (why : Reason) (w : Wait) : (s.waitAt why w).fabOut = s.fabOut := rfl
@[simp] theorem State.waitAt_dev (s : State) (why : Reason) (w : Wait) : (s.waitAt why w).dev = s.dev := rfl
@[simp] theorem State.waitAt_fresh (s : State) (why : Reason) (w : Wait) : (s.waitAt why w).fresh = s.fresh := rfl
@[simp] theorem State.waitAt_freeCtr (s : State) (why : Reason) (w : Wait) : (s.waitAt why w).freeCtr = s.freeCtr := rfl
@[simp] theorem State.waitAt_steps (s : State) (why : Reason) (w : Wait) : (s.waitAt why w).steps = s.steps := rfl
@[simp] theorem State.waitAt_schedule (s : State) (why : Reason) (w : Wait) : (s.waitAt why w).schedule = s.schedule := rfl
@[simp] theorem State.waitAt_inputs (s : State) (why : Reason) (w : Wait) : (s.waitAt why w).inputs = s.inputs := rfl
@[simp] theorem State.waitAt_soft (s : State) (why : Reason) (w : Wait) : (s.waitAt why w).soft = s.soft := rfl

/-! `State.pmcAdd` -/

@[simp] theorem State.pmcAdd_g (s : State) (h c n : Nat) : (s.pmcAdd h c n).g = s.g := rfl
@[simp] theorem State.pmcAdd_others (s : State) (h c n : Nat) : (s.pmcAdd h c n).others = s.others := rfl
@[simp] theorem State.pmcAdd_tm (s : State) (h c n : Nat) : (s.pmcAdd h c n).tm = s.tm := rfl
@[simp] theorem State.pmcAdd_teams (s : State) (h c n : Nat) : (s.pmcAdd h c n).teams = s.teams := rfl
@[simp] theorem State.pmcAdd_ctxs (s : State) (h c n : Nat) : (s.pmcAdd h c n).ctxs = s.ctxs := rfl
@[simp] theorem State.pmcAdd_mem (s : State) (h c n : Nat) : (s.pmcAdd h c n).mem = s.mem := rfl
@[simp] theorem State.pmcAdd_cores (s : State) (h c n : Nat) : (s.pmcAdd h c n).cores = s.cores := rfl
@[simp] theorem State.pmcAdd_groves (s : State) (h c n : Nat) : (s.pmcAdd h c n).groves = s.groves := rfl
@[simp] theorem State.pmcAdd_arrays (s : State) (h c n : Nat) : (s.pmcAdd h c n).arrays = s.arrays := rfl
@[simp] theorem State.pmcAdd_dies (s : State) (h c n : Nat) : (s.pmcAdd h c n).dies = s.dies := rfl
@[simp] theorem State.pmcAdd_engs (s : State) (h c n : Nat) : (s.pmcAdd h c n).engs = s.engs := rfl
@[simp] theorem State.pmcAdd_subs (s : State) (h c n : Nat) : (s.pmcAdd h c n).subs = s.subs := rfl
@[simp] theorem State.pmcAdd_tops (s : State) (h c n : Nat) : (s.pmcAdd h c n).tops = s.tops := rfl
@[simp] theorem State.pmcAdd_walks (s : State) (h c n : Nat) : (s.pmcAdd h c n).walks = s.walks := rfl
@[simp] theorem State.pmcAdd_fills (s : State) (h c n : Nat) : (s.pmcAdd h c n).fills = s.fills := rfl
@[simp] theorem State.pmcAdd_shoots (s : State) (h c n : Nat) : (s.pmcAdd h c n).shoots = s.shoots := rfl
@[simp] theorem State.pmcAdd_coh (s : State) (h c n : Nat) : (s.pmcAdd h c n).coh = s.coh := rfl
@[simp] theorem State.pmcAdd_pend (s : State) (h c n : Nat) : (s.pmcAdd h c n).pend = s.pend := rfl
@[simp] theorem State.pmcAdd_rootTlb (s : State) (h c n : Nat) : (s.pmcAdd h c n).rootTlb = s.rootTlb := rfl
@[simp] theorem State.pmcAdd_rootGens (s : State) (h c n : Nat) : (s.pmcAdd h c n).rootGens = s.rootGens := rfl
@[simp] theorem State.pmcAdd_fab (s : State) (h c n : Nat) : (s.pmcAdd h c n).fab = s.fab := rfl
@[simp] theorem State.pmcAdd_fabOut (s : State) (h c n : Nat) : (s.pmcAdd h c n).fabOut = s.fabOut := rfl
@[simp] theorem State.pmcAdd_dev (s : State) (h c n : Nat) : (s.pmcAdd h c n).dev = s.dev := rfl
@[simp] theorem State.pmcAdd_fresh (s : State) (h c n : Nat) : (s.pmcAdd h c n).fresh = s.fresh := rfl
@[simp] theorem State.pmcAdd_freeCtr (s : State) (h c n : Nat) : (s.pmcAdd h c n).freeCtr = s.freeCtr := rfl
@[simp] theorem State.pmcAdd_steps (s : State) (h c n : Nat) : (s.pmcAdd h c n).steps = s.steps := rfl
@[simp] theorem State.pmcAdd_schedule (s : State) (h c n : Nat) : (s.pmcAdd h c n).schedule = s.schedule := rfl
@[simp] theorem State.pmcAdd_inputs (s : State) (h c n : Nat) : (s.pmcAdd h c n).inputs = s.inputs := rfl
@[simp] theorem State.pmcAdd_soft (s : State) (h c n : Nat) : (s.pmcAdd h c n).soft = s.soft := rfl

/-! `State.mapGroups` -/

@[simp] theorem State.mapGroups_tm (s : State) (f : Group → Group) : (s.mapGroups f).tm = s.tm := rfl
@[simp] theorem State.mapGroups_teams (s : State) (f : Group → Group) : (s.mapGroups f).teams = s.teams := rfl
@[simp] theorem State.mapGroups_cx (s : State) (f : Group → Group) : (s.mapGroups f).cx = s.cx := rfl
@[simp] theorem State.mapGroups_ctxs (s : State) (f : Group → Group) : (s.mapGroups f).ctxs = s.ctxs := rfl
@[simp] theorem State.mapGroups_mem (s : State) (f : Group → Group) : (s.mapGroups f).mem = s.mem := rfl
@[simp] theorem State.mapGroups_cores (s : State) (f : Group → Group) : (s.mapGroups f).cores = s.cores := rfl
@[simp] theorem State.mapGroups_groves (s : State) (f : Group → Group) : (s.mapGroups f).groves = s.groves := rfl
@[simp] theorem State.mapGroups_arrays (s : State) (f : Group → Group) : (s.mapGroups f).arrays = s.arrays := rfl
@[simp] theorem State.mapGroups_dies (s : State) (f : Group → Group) : (s.mapGroups f).dies = s.dies := rfl
@[simp] theorem State.mapGroups_engs (s : State) (f : Group → Group) : (s.mapGroups f).engs = s.engs := rfl
@[simp] theorem State.mapGroups_subs (s : State) (f : Group → Group) : (s.mapGroups f).subs = s.subs := rfl
@[simp] theorem State.mapGroups_tops (s : State) (f : Group → Group) : (s.mapGroups f).tops = s.tops := rfl
@[simp] theorem State.mapGroups_walks (s : State) (f : Group → Group) : (s.mapGroups f).walks = s.walks := rfl
@[simp] theorem State.mapGroups_fills (s : State) (f : Group → Group) : (s.mapGroups f).fills = s.fills := rfl
@[simp] theorem State.mapGroups_shoots (s : State) (f : Group → Group) : (s.mapGroups f).shoots = s.shoots := rfl
@[simp] theorem State.mapGroups_coh (s : State) (f : Group → Group) : (s.mapGroups f).coh = s.coh := rfl
@[simp] theorem State.mapGroups_pend (s : State) (f : Group → Group) : (s.mapGroups f).pend = s.pend := rfl
@[simp] theorem State.mapGroups_rootTlb (s : State) (f : Group → Group) : (s.mapGroups f).rootTlb = s.rootTlb := rfl
@[simp] theorem State.mapGroups_rootGens (s : State) (f : Group → Group) : (s.mapGroups f).rootGens = s.rootGens := rfl
@[simp] theorem State.mapGroups_fab (s : State) (f : Group → Group) : (s.mapGroups f).fab = s.fab := rfl
@[simp] theorem State.mapGroups_fabOut (s : State) (f : Group → Group) : (s.mapGroups f).fabOut = s.fabOut := rfl
@[simp] theorem State.mapGroups_dev (s : State) (f : Group → Group) : (s.mapGroups f).dev = s.dev := rfl
@[simp] theorem State.mapGroups_fresh (s : State) (f : Group → Group) : (s.mapGroups f).fresh = s.fresh := rfl
@[simp] theorem State.mapGroups_freeCtr (s : State) (f : Group → Group) : (s.mapGroups f).freeCtr = s.freeCtr := rfl
@[simp] theorem State.mapGroups_steps (s : State) (f : Group → Group) : (s.mapGroups f).steps = s.steps := rfl
@[simp] theorem State.mapGroups_schedule (s : State) (f : Group → Group) : (s.mapGroups f).schedule = s.schedule := rfl
@[simp] theorem State.mapGroups_inputs (s : State) (f : Group → Group) : (s.mapGroups f).inputs = s.inputs := rfl
@[simp] theorem State.mapGroups_soft (s : State) (f : Group → Group) : (s.mapGroups f).soft = s.soft := rfl

/-! `State.modGroup` -/

@[simp] theorem State.modGroup_tm (s : State) (k : Nat) (f : Group → Group) : (s.modGroup k f).tm = s.tm := rfl
@[simp] theorem State.modGroup_teams (s : State) (k : Nat) (f : Group → Group) : (s.modGroup k f).teams = s.teams := rfl
@[simp] theorem State.modGroup_cx (s : State) (k : Nat) (f : Group → Group) : (s.modGroup k f).cx = s.cx := rfl
@[simp] theorem State.modGroup_ctxs (s : State) (k : Nat) (f : Group → Group) : (s.modGroup k f).ctxs = s.ctxs := rfl
@[simp] theorem State.modGroup_mem (s : State) (k : Nat) (f : Group → Group) : (s.modGroup k f).mem = s.mem := rfl
@[simp] theorem State.modGroup_cores (s : State) (k : Nat) (f : Group → Group) : (s.modGroup k f).cores = s.cores := rfl
@[simp] theorem State.modGroup_groves (s : State) (k : Nat) (f : Group → Group) : (s.modGroup k f).groves = s.groves := rfl
@[simp] theorem State.modGroup_arrays (s : State) (k : Nat) (f : Group → Group) : (s.modGroup k f).arrays = s.arrays := rfl
@[simp] theorem State.modGroup_dies (s : State) (k : Nat) (f : Group → Group) : (s.modGroup k f).dies = s.dies := rfl
@[simp] theorem State.modGroup_engs (s : State) (k : Nat) (f : Group → Group) : (s.modGroup k f).engs = s.engs := rfl
@[simp] theorem State.modGroup_subs (s : State) (k : Nat) (f : Group → Group) : (s.modGroup k f).subs = s.subs := rfl
@[simp] theorem State.modGroup_tops (s : State) (k : Nat) (f : Group → Group) : (s.modGroup k f).tops = s.tops := rfl
@[simp] theorem State.modGroup_walks (s : State) (k : Nat) (f : Group → Group) : (s.modGroup k f).walks = s.walks := rfl
@[simp] theorem State.modGroup_fills (s : State) (k : Nat) (f : Group → Group) : (s.modGroup k f).fills = s.fills := rfl
@[simp] theorem State.modGroup_shoots (s : State) (k : Nat) (f : Group → Group) : (s.modGroup k f).shoots = s.shoots := rfl
@[simp] theorem State.modGroup_coh (s : State) (k : Nat) (f : Group → Group) : (s.modGroup k f).coh = s.coh := rfl
@[simp] theorem State.modGroup_pend (s : State) (k : Nat) (f : Group → Group) : (s.modGroup k f).pend = s.pend := rfl
@[simp] theorem State.modGroup_rootTlb (s : State) (k : Nat) (f : Group → Group) : (s.modGroup k f).rootTlb = s.rootTlb := rfl
@[simp] theorem State.modGroup_rootGens (s : State) (k : Nat) (f : Group → Group) : (s.modGroup k f).rootGens = s.rootGens := rfl
@[simp] theorem State.modGroup_fab (s : State) (k : Nat) (f : Group → Group) : (s.modGroup k f).fab = s.fab := rfl
@[simp] theorem State.modGroup_fabOut (s : State) (k : Nat) (f : Group → Group) : (s.modGroup k f).fabOut = s.fabOut := rfl
@[simp] theorem State.modGroup_dev (s : State) (k : Nat) (f : Group → Group) : (s.modGroup k f).dev = s.dev := rfl
@[simp] theorem State.modGroup_fresh (s : State) (k : Nat) (f : Group → Group) : (s.modGroup k f).fresh = s.fresh := rfl
@[simp] theorem State.modGroup_freeCtr (s : State) (k : Nat) (f : Group → Group) : (s.modGroup k f).freeCtr = s.freeCtr := rfl
@[simp] theorem State.modGroup_steps (s : State) (k : Nat) (f : Group → Group) : (s.modGroup k f).steps = s.steps := rfl
@[simp] theorem State.modGroup_schedule (s : State) (k : Nat) (f : Group → Group) : (s.modGroup k f).schedule = s.schedule := rfl
@[simp] theorem State.modGroup_inputs (s : State) (k : Nat) (f : Group → Group) : (s.modGroup k f).inputs = s.inputs := rfl
@[simp] theorem State.modGroup_soft (s : State) (k : Nat) (f : Group → Group) : (s.modGroup k f).soft = s.soft := rfl

/-! `State.modTeam` -/

@[simp] theorem State.modTeam_g (s : State) (k : Nat) (f : Team → Team) : (s.modTeam k f).g = s.g := rfl
@[simp] theorem State.modTeam_others (s : State) (k : Nat) (f : Team → Team) : (s.modTeam k f).others = s.others := rfl
@[simp] theorem State.modTeam_cx (s : State) (k : Nat) (f : Team → Team) : (s.modTeam k f).cx = s.cx := rfl
@[simp] theorem State.modTeam_ctxs (s : State) (k : Nat) (f : Team → Team) : (s.modTeam k f).ctxs = s.ctxs := rfl
@[simp] theorem State.modTeam_mem (s : State) (k : Nat) (f : Team → Team) : (s.modTeam k f).mem = s.mem := rfl
@[simp] theorem State.modTeam_cores (s : State) (k : Nat) (f : Team → Team) : (s.modTeam k f).cores = s.cores := rfl
@[simp] theorem State.modTeam_groves (s : State) (k : Nat) (f : Team → Team) : (s.modTeam k f).groves = s.groves := rfl
@[simp] theorem State.modTeam_arrays (s : State) (k : Nat) (f : Team → Team) : (s.modTeam k f).arrays = s.arrays := rfl
@[simp] theorem State.modTeam_dies (s : State) (k : Nat) (f : Team → Team) : (s.modTeam k f).dies = s.dies := rfl
@[simp] theorem State.modTeam_engs (s : State) (k : Nat) (f : Team → Team) : (s.modTeam k f).engs = s.engs := rfl
@[simp] theorem State.modTeam_subs (s : State) (k : Nat) (f : Team → Team) : (s.modTeam k f).subs = s.subs := rfl
@[simp] theorem State.modTeam_tops (s : State) (k : Nat) (f : Team → Team) : (s.modTeam k f).tops = s.tops := rfl
@[simp] theorem State.modTeam_walks (s : State) (k : Nat) (f : Team → Team) : (s.modTeam k f).walks = s.walks := rfl
@[simp] theorem State.modTeam_fills (s : State) (k : Nat) (f : Team → Team) : (s.modTeam k f).fills = s.fills := rfl
@[simp] theorem State.modTeam_shoots (s : State) (k : Nat) (f : Team → Team) : (s.modTeam k f).shoots = s.shoots := rfl
@[simp] theorem State.modTeam_coh (s : State) (k : Nat) (f : Team → Team) : (s.modTeam k f).coh = s.coh := rfl
@[simp] theorem State.modTeam_pend (s : State) (k : Nat) (f : Team → Team) : (s.modTeam k f).pend = s.pend := rfl
@[simp] theorem State.modTeam_rootTlb (s : State) (k : Nat) (f : Team → Team) : (s.modTeam k f).rootTlb = s.rootTlb := rfl
@[simp] theorem State.modTeam_rootGens (s : State) (k : Nat) (f : Team → Team) : (s.modTeam k f).rootGens = s.rootGens := rfl
@[simp] theorem State.modTeam_fab (s : State) (k : Nat) (f : Team → Team) : (s.modTeam k f).fab = s.fab := rfl
@[simp] theorem State.modTeam_fabOut (s : State) (k : Nat) (f : Team → Team) : (s.modTeam k f).fabOut = s.fabOut := rfl
@[simp] theorem State.modTeam_dev (s : State) (k : Nat) (f : Team → Team) : (s.modTeam k f).dev = s.dev := rfl
@[simp] theorem State.modTeam_fresh (s : State) (k : Nat) (f : Team → Team) : (s.modTeam k f).fresh = s.fresh := rfl
@[simp] theorem State.modTeam_freeCtr (s : State) (k : Nat) (f : Team → Team) : (s.modTeam k f).freeCtr = s.freeCtr := rfl
@[simp] theorem State.modTeam_steps (s : State) (k : Nat) (f : Team → Team) : (s.modTeam k f).steps = s.steps := rfl
@[simp] theorem State.modTeam_schedule (s : State) (k : Nat) (f : Team → Team) : (s.modTeam k f).schedule = s.schedule := rfl
@[simp] theorem State.modTeam_inputs (s : State) (k : Nat) (f : Team → Team) : (s.modTeam k f).inputs = s.inputs := rfl
@[simp] theorem State.modTeam_soft (s : State) (k : Nat) (f : Team → Team) : (s.modTeam k f).soft = s.soft := rfl

/-! `State.modCtx` -/

@[simp] theorem State.modCtx_g (s : State) (k : Nat) (f : Ctx → Ctx) : (s.modCtx k f).g = s.g := rfl
@[simp] theorem State.modCtx_others (s : State) (k : Nat) (f : Ctx → Ctx) : (s.modCtx k f).others = s.others := rfl
@[simp] theorem State.modCtx_tm (s : State) (k : Nat) (f : Ctx → Ctx) : (s.modCtx k f).tm = s.tm := rfl
@[simp] theorem State.modCtx_teams (s : State) (k : Nat) (f : Ctx → Ctx) : (s.modCtx k f).teams = s.teams := rfl
@[simp] theorem State.modCtx_mem (s : State) (k : Nat) (f : Ctx → Ctx) : (s.modCtx k f).mem = s.mem := rfl
@[simp] theorem State.modCtx_cores (s : State) (k : Nat) (f : Ctx → Ctx) : (s.modCtx k f).cores = s.cores := rfl
@[simp] theorem State.modCtx_groves (s : State) (k : Nat) (f : Ctx → Ctx) : (s.modCtx k f).groves = s.groves := rfl
@[simp] theorem State.modCtx_arrays (s : State) (k : Nat) (f : Ctx → Ctx) : (s.modCtx k f).arrays = s.arrays := rfl
@[simp] theorem State.modCtx_dies (s : State) (k : Nat) (f : Ctx → Ctx) : (s.modCtx k f).dies = s.dies := rfl
@[simp] theorem State.modCtx_engs (s : State) (k : Nat) (f : Ctx → Ctx) : (s.modCtx k f).engs = s.engs := rfl
@[simp] theorem State.modCtx_subs (s : State) (k : Nat) (f : Ctx → Ctx) : (s.modCtx k f).subs = s.subs := rfl
@[simp] theorem State.modCtx_tops (s : State) (k : Nat) (f : Ctx → Ctx) : (s.modCtx k f).tops = s.tops := rfl
@[simp] theorem State.modCtx_walks (s : State) (k : Nat) (f : Ctx → Ctx) : (s.modCtx k f).walks = s.walks := rfl
@[simp] theorem State.modCtx_fills (s : State) (k : Nat) (f : Ctx → Ctx) : (s.modCtx k f).fills = s.fills := rfl
@[simp] theorem State.modCtx_shoots (s : State) (k : Nat) (f : Ctx → Ctx) : (s.modCtx k f).shoots = s.shoots := rfl
@[simp] theorem State.modCtx_coh (s : State) (k : Nat) (f : Ctx → Ctx) : (s.modCtx k f).coh = s.coh := rfl
@[simp] theorem State.modCtx_pend (s : State) (k : Nat) (f : Ctx → Ctx) : (s.modCtx k f).pend = s.pend := rfl
@[simp] theorem State.modCtx_rootTlb (s : State) (k : Nat) (f : Ctx → Ctx) : (s.modCtx k f).rootTlb = s.rootTlb := rfl
@[simp] theorem State.modCtx_rootGens (s : State) (k : Nat) (f : Ctx → Ctx) : (s.modCtx k f).rootGens = s.rootGens := rfl
@[simp] theorem State.modCtx_fab (s : State) (k : Nat) (f : Ctx → Ctx) : (s.modCtx k f).fab = s.fab := rfl
@[simp] theorem State.modCtx_fabOut (s : State) (k : Nat) (f : Ctx → Ctx) : (s.modCtx k f).fabOut = s.fabOut := rfl
@[simp] theorem State.modCtx_dev (s : State) (k : Nat) (f : Ctx → Ctx) : (s.modCtx k f).dev = s.dev := rfl
@[simp] theorem State.modCtx_fresh (s : State) (k : Nat) (f : Ctx → Ctx) : (s.modCtx k f).fresh = s.fresh := rfl
@[simp] theorem State.modCtx_freeCtr (s : State) (k : Nat) (f : Ctx → Ctx) : (s.modCtx k f).freeCtr = s.freeCtr := rfl
@[simp] theorem State.modCtx_steps (s : State) (k : Nat) (f : Ctx → Ctx) : (s.modCtx k f).steps = s.steps := rfl
@[simp] theorem State.modCtx_schedule (s : State) (k : Nat) (f : Ctx → Ctx) : (s.modCtx k f).schedule = s.schedule := rfl
@[simp] theorem State.modCtx_inputs (s : State) (k : Nat) (f : Ctx → Ctx) : (s.modCtx k f).inputs = s.inputs := rfl
@[simp] theorem State.modCtx_soft (s : State) (k : Nat) (f : Ctx → Ctx) : (s.modCtx k f).soft = s.soft := rfl

/-! `Group.setS` -/

@[simp] theorem Group.setS_live (g : Group) (n : Nat) (x : Word) : (g.setS n x).live = g.live := rfl
@[simp] theorem Group.setS_key (g : Group) (n : Nat) (x : Word) : (g.setS n x).key = g.key := rfl
@[simp] theorem Group.setS_ctx (g : Group) (n : Nat) (x : Word) : (g.setS n x).ctx = g.ctx := rfl
@[simp] theorem Group.setS_team (g : Group) (n : Nat) (x : Word) : (g.setS n x).team = g.team := rfl
@[simp] theorem Group.setS_lslot (g : Group) (n : Nat) (x : Word) : (g.setS n x).lslot = g.lslot := rfl
@[simp] theorem Group.setS_teamIdx (g : Group) (n : Nat) (x : Word) : (g.setS n x).teamIdx = g.teamIdx := rfl
@[simp] theorem Group.setS_grp (g : Group) (n : Nat) (x : Word) : (g.setS n x).grp = g.grp := rfl
@[simp] theorem Group.setS_core (g : Group) (n : Nat) (x : Word) : (g.setS n x).core = g.core := rfl
@[simp] theorem Group.setS_slot (g : Group) (n : Nat) (x : Word) : (g.setS n x).slot = g.slot := rfl
@[simp] theorem Group.setS_age (g : Group) (n : Nat) (x : Word) : (g.setS n x).age = g.age := rfl
@[simp] theorem Group.setS_priv (g : Group) (n : Nat) (x : Word) : (g.setS n x).priv = g.priv := rfl
@[simp] theorem Group.setS_vregs (g : Group) (n : Nat) (x : Word) : (g.setS n x).vregs = g.vregs := rfl
@[simp] theorem Group.setS_sregs (g : Group) (n : Nat) (x : Word) : (g.setS n x).sregs = g.sregs := rfl
@[simp] theorem Group.setS_wdLimit (g : Group) (n : Nat) (x : Word) : (g.setS n x).wdLimit = g.wdLimit := rfl
@[simp] theorem Group.setS_coop (g : Group) (n : Nat) (x : Word) : (g.setS n x).coop = g.coop := rfl
@[simp] theorem Group.setS_st (g : Group) (n : Nat) (x : Word) : (g.setS n x).st = g.st := rfl
@[simp] theorem Group.setS_stLeft (g : Group) (n : Nat) (x : Word) : (g.setS n x).stLeft = g.stLeft := rfl
@[simp] theorem Group.setS_back (g : Group) (n : Nat) (x : Word) : (g.setS n x).back = g.back := rfl
@[simp] theorem Group.setS_reason (g : Group) (n : Nat) (x : Word) : (g.setS n x).reason = g.reason := rfl
@[simp] theorem Group.setS_wait (g : Group) (n : Nat) (x : Word) : (g.setS n x).wait = g.wait := rfl
@[simp] theorem Group.setS_status (g : Group) (n : Nat) (x : Word) : (g.setS n x).status = g.status := rfl
@[simp] theorem Group.setS_cancelReq (g : Group) (n : Nat) (x : Word) : (g.setS n x).cancelReq = g.cancelReq := rfl
@[simp] theorem Group.setS_freezeReq (g : Group) (n : Nat) (x : Word) : (g.setS n x).freezeReq = g.freezeReq := rfl
@[simp] theorem Group.setS_pc (g : Group) (n : Nat) (x : Word) : (g.setS n x).pc = g.pc := rfl
@[simp] theorem Group.setS_v (g : Group) (n : Nat) (x : Word) : (g.setS n x).v = g.v := rfl
@[simp] theorem Group.setS_tags (g : Group) (n : Nat) (x : Word) : (g.setS n x).tags = g.tags := rfl
@[simp] theorem Group.setS_emptyS (g : Group) (n : Nat) (x : Word) : (g.setS n x).emptyS = g.emptyS := rfl
@[simp] theorem Group.setS_emptyV (g : Group) (n : Nat) (x : Word) : (g.setS n x).emptyV = g.emptyV := rfl
@[simp] theorem Group.setS_exec (g : Group) (n : Nat) (x : Word) : (g.setS n x).exec = g.exec := rfl
@[simp] theorem Group.setS_cmask (g : Group) (n : Nat) (x : Word) : (g.setS n x).cmask = g.cmask := rfl
@[simp] theorem Group.setS_savedexec (g : Group) (n : Nat) (x : Word) : (g.setS n x).savedexec = g.savedexec := rfl
@[simp] theorem Group.setS_scc (g : Group) (n : Nat) (x : Word) : (g.setS n x).scc = g.scc := rfl
@[simp] theorem Group.setS_mode (g : Group) (n : Nat) (x : Word) : (g.setS n x).mode = g.mode := rfl
@[simp] theorem Group.setS_fmts (g : Group) (n : Nat) (x : Word) : (g.setS n x).fmts = g.fmts := rfl
@[simp] theorem Group.setS_dphase (g : Group) (n : Nat) (x : Word) : (g.setS n x).dphase = g.dphase := rfl
@[simp] theorem Group.setS_unitPhase (g : Group) (n : Nat) (x : Word) : (g.setS n x).unitPhase = g.unitPhase := rfl
@[simp] theorem Group.setS_chain (g : Group) (n : Nat) (x : Word) : (g.setS n x).chain = g.chain := rfl
@[simp] theorem Group.setS_cnt (g : Group) (n : Nat) (x : Word) : (g.setS n x).cnt = g.cnt := rfl
@[simp] theorem Group.setS_wdcount (g : Group) (n : Nat) (x : Word) : (g.setS n x).wdcount = g.wdcount := rfl
@[simp] theorem Group.setS_tr (g : Group) (n : Nat) (x : Word) : (g.setS n x).tr = g.tr := rfl
@[simp] theorem Group.setS_xva (g : Group) (n : Nat) (x : Word) : (g.setS n x).xva = g.xva := rfl
@[simp] theorem Group.setS_xdet (g : Group) (n : Nat) (x : Word) : (g.setS n x).xdet = g.xdet := rfl
@[simp] theorem Group.setS_efva (g : Group) (n : Nat) (x : Word) : (g.setS n x).efva = g.efva := rfl
@[simp] theorem Group.setS_efdet (g : Group) (n : Nat) (x : Word) : (g.setS n x).efdet = g.efdet := rfl
@[simp] theorem Group.setS_efsrc (g : Group) (n : Nat) (x : Word) : (g.setS n x).efsrc = g.efsrc := rfl
@[simp] theorem Group.setS_bxdet (g : Group) (n : Nat) (x : Word) : (g.setS n x).bxdet = g.bxdet := rfl
@[simp] theorem Group.setS_bxpc (g : Group) (n : Nat) (x : Word) : (g.setS n x).bxpc = g.bxpc := rfl
@[simp] theorem Group.setS_rwrec (g : Group) (n : Nat) (x : Word) : (g.setS n x).rwrec = g.rwrec := rfl
@[simp] theorem Group.setS_rwpc (g : Group) (n : Nat) (x : Word) : (g.setS n x).rwpc = g.rwpc := rfl
@[simp] theorem Group.setS_clockhi (g : Group) (n : Nat) (x : Word) : (g.setS n x).clockhi = g.clockhi := rfl
@[simp] theorem Group.setS_pmchi (g : Group) (n : Nat) (x : Word) : (g.setS n x).pmchi = g.pmchi := rfl
@[simp] theorem Group.setS_trc (g : Group) (n : Nat) (x : Word) : (g.setS n x).trc = g.trc := rfl
@[simp] theorem Group.setS_part (g : Group) (n : Nat) (x : Word) : (g.setS n x).part = g.part := rfl
@[simp] theorem Group.setS_partOvf (g : Group) (n : Nat) (x : Word) : (g.setS n x).partOvf = g.partOvf := rfl
@[simp] theorem Group.setS_rets (g : Group) (n : Nat) (x : Word) : (g.setS n x).rets = g.rets := rfl
@[simp] theorem Group.setS_atoms (g : Group) (n : Nat) (x : Word) : (g.setS n x).atoms = g.atoms := rfl
@[simp] theorem Group.setS_bounds (g : Group) (n : Nat) (x : Word) : (g.setS n x).bounds = g.bounds := rfl
@[simp] theorem Group.setS_late (g : Group) (n : Nat) (x : Word) : (g.setS n x).late = g.late := rfl
@[simp] theorem Group.setS_gbarUse (g : Group) (n : Nat) (x : Word) : (g.setS n x).gbarUse = g.gbarUse := rfl
@[simp] theorem Group.setS_gbarIn (g : Group) (n : Nat) (x : Word) : (g.setS n x).gbarIn = g.gbarIn := rfl
@[simp] theorem Group.setS_mon (g : Group) (n : Nat) (x : Word) : (g.setS n x).mon = g.mon := rfl
@[simp] theorem Group.setS_held (g : Group) (n : Nat) (x : Word) : (g.setS n x).held = g.held := rfl
@[simp] theorem Group.setS_bpSkip (g : Group) (n : Nat) (x : Word) : (g.setS n x).bpSkip = g.bpSkip := rfl
@[simp] theorem Group.setS_inProgress (g : Group) (n : Nat) (x : Word) : (g.setS n x).inProgress = g.inProgress := rfl
@[simp] theorem Group.setS_stepping (g : Group) (n : Nat) (x : Word) : (g.setS n x).stepping = g.stepping := rfl
@[simp] theorem Group.setS_rule (g : Group) (n : Nat) (x : Word) : (g.setS n x).rule = g.rule := rfl
@[simp] theorem Group.setS_replay (g : Group) (n : Nat) (x : Word) : (g.setS n x).replay = g.replay := rfl
@[simp] theorem Group.setS_term (g : Group) (n : Nat) (x : Word) : (g.setS n x).term = g.term := rfl
@[simp] theorem Group.setS_unitRaise (g : Group) (n : Nat) (x : Word) : (g.setS n x).unitRaise = g.unitRaise := rfl
@[simp] theorem Group.setS_forced (g : Group) (n : Nat) (x : Word) : (g.setS n x).forced = g.forced := rfl
@[simp] theorem Group.setS_lastPc (g : Group) (n : Nat) (x : Word) : (g.setS n x).lastPc = g.lastPc := rfl
@[simp] theorem Group.setS_lastWord (g : Group) (n : Nat) (x : Word) : (g.setS n x).lastWord = g.lastWord := rfl
@[simp] theorem Group.setS_lastExec (g : Group) (n : Nat) (x : Word) : (g.setS n x).lastExec = g.lastExec := rfl
@[simp] theorem Group.setS_lastCode (g : Group) (n : Nat) (x : Word) : (g.setS n x).lastCode = g.lastCode := rfl
@[simp] theorem Group.setS_lastGraft (g : Group) (n : Nat) (x : Word) : (g.setS n x).lastGraft = g.lastGraft := rfl
@[simp] theorem Group.setS_stopCause (g : Group) (n : Nat) (x : Word) : (g.setS n x).stopCause = g.stopCause := rfl

/-! `Group.setLane` -/

@[simp] theorem Group.setLane_live (g : Group) (r l : Nat) (x : Word) : (g.setLane r l x).live = g.live := rfl
@[simp] theorem Group.setLane_key (g : Group) (r l : Nat) (x : Word) : (g.setLane r l x).key = g.key := rfl
@[simp] theorem Group.setLane_ctx (g : Group) (r l : Nat) (x : Word) : (g.setLane r l x).ctx = g.ctx := rfl
@[simp] theorem Group.setLane_team (g : Group) (r l : Nat) (x : Word) : (g.setLane r l x).team = g.team := rfl
@[simp] theorem Group.setLane_lslot (g : Group) (r l : Nat) (x : Word) : (g.setLane r l x).lslot = g.lslot := rfl
@[simp] theorem Group.setLane_teamIdx (g : Group) (r l : Nat) (x : Word) : (g.setLane r l x).teamIdx = g.teamIdx := rfl
@[simp] theorem Group.setLane_grp (g : Group) (r l : Nat) (x : Word) : (g.setLane r l x).grp = g.grp := rfl
@[simp] theorem Group.setLane_core (g : Group) (r l : Nat) (x : Word) : (g.setLane r l x).core = g.core := rfl
@[simp] theorem Group.setLane_slot (g : Group) (r l : Nat) (x : Word) : (g.setLane r l x).slot = g.slot := rfl
@[simp] theorem Group.setLane_age (g : Group) (r l : Nat) (x : Word) : (g.setLane r l x).age = g.age := rfl
@[simp] theorem Group.setLane_priv (g : Group) (r l : Nat) (x : Word) : (g.setLane r l x).priv = g.priv := rfl
@[simp] theorem Group.setLane_vregs (g : Group) (r l : Nat) (x : Word) : (g.setLane r l x).vregs = g.vregs := rfl
@[simp] theorem Group.setLane_sregs (g : Group) (r l : Nat) (x : Word) : (g.setLane r l x).sregs = g.sregs := rfl
@[simp] theorem Group.setLane_wdLimit (g : Group) (r l : Nat) (x : Word) : (g.setLane r l x).wdLimit = g.wdLimit := rfl
@[simp] theorem Group.setLane_coop (g : Group) (r l : Nat) (x : Word) : (g.setLane r l x).coop = g.coop := rfl
@[simp] theorem Group.setLane_st (g : Group) (r l : Nat) (x : Word) : (g.setLane r l x).st = g.st := rfl
@[simp] theorem Group.setLane_stLeft (g : Group) (r l : Nat) (x : Word) : (g.setLane r l x).stLeft = g.stLeft := rfl
@[simp] theorem Group.setLane_back (g : Group) (r l : Nat) (x : Word) : (g.setLane r l x).back = g.back := rfl
@[simp] theorem Group.setLane_reason (g : Group) (r l : Nat) (x : Word) : (g.setLane r l x).reason = g.reason := rfl
@[simp] theorem Group.setLane_wait (g : Group) (r l : Nat) (x : Word) : (g.setLane r l x).wait = g.wait := rfl
@[simp] theorem Group.setLane_status (g : Group) (r l : Nat) (x : Word) : (g.setLane r l x).status = g.status := rfl
@[simp] theorem Group.setLane_cancelReq (g : Group) (r l : Nat) (x : Word) : (g.setLane r l x).cancelReq = g.cancelReq := rfl
@[simp] theorem Group.setLane_freezeReq (g : Group) (r l : Nat) (x : Word) : (g.setLane r l x).freezeReq = g.freezeReq := rfl
@[simp] theorem Group.setLane_pc (g : Group) (r l : Nat) (x : Word) : (g.setLane r l x).pc = g.pc := rfl
@[simp] theorem Group.setLane_s (g : Group) (r l : Nat) (x : Word) : (g.setLane r l x).s = g.s := rfl
@[simp] theorem Group.setLane_tags (g : Group) (r l : Nat) (x : Word) : (g.setLane r l x).tags = g.tags := rfl
@[simp] theorem Group.setLane_emptyS (g : Group) (r l : Nat) (x : Word) : (g.setLane r l x).emptyS = g.emptyS := rfl
@[simp] theorem Group.setLane_emptyV (g : Group) (r l : Nat) (x : Word) : (g.setLane r l x).emptyV = g.emptyV := rfl
@[simp] theorem Group.setLane_exec (g : Group) (r l : Nat) (x : Word) : (g.setLane r l x).exec = g.exec := rfl
@[simp] theorem Group.setLane_cmask (g : Group) (r l : Nat) (x : Word) : (g.setLane r l x).cmask = g.cmask := rfl
@[simp] theorem Group.setLane_savedexec (g : Group) (r l : Nat) (x : Word) : (g.setLane r l x).savedexec = g.savedexec := rfl
@[simp] theorem Group.setLane_scc (g : Group) (r l : Nat) (x : Word) : (g.setLane r l x).scc = g.scc := rfl
@[simp] theorem Group.setLane_mode (g : Group) (r l : Nat) (x : Word) : (g.setLane r l x).mode = g.mode := rfl
@[simp] theorem Group.setLane_fmts (g : Group) (r l : Nat) (x : Word) : (g.setLane r l x).fmts = g.fmts := rfl
@[simp] theorem Group.setLane_dphase (g : Group) (r l : Nat) (x : Word) : (g.setLane r l x).dphase = g.dphase := rfl
@[simp] theorem Group.setLane_unitPhase (g : Group) (r l : Nat) (x : Word) : (g.setLane r l x).unitPhase = g.unitPhase := rfl
@[simp] theorem Group.setLane_chain (g : Group) (r l : Nat) (x : Word) : (g.setLane r l x).chain = g.chain := rfl
@[simp] theorem Group.setLane_cnt (g : Group) (r l : Nat) (x : Word) : (g.setLane r l x).cnt = g.cnt := rfl
@[simp] theorem Group.setLane_wdcount (g : Group) (r l : Nat) (x : Word) : (g.setLane r l x).wdcount = g.wdcount := rfl
@[simp] theorem Group.setLane_tr (g : Group) (r l : Nat) (x : Word) : (g.setLane r l x).tr = g.tr := rfl
@[simp] theorem Group.setLane_xva (g : Group) (r l : Nat) (x : Word) : (g.setLane r l x).xva = g.xva := rfl
@[simp] theorem Group.setLane_xdet (g : Group) (r l : Nat) (x : Word) : (g.setLane r l x).xdet = g.xdet := rfl
@[simp] theorem Group.setLane_efva (g : Group) (r l : Nat) (x : Word) : (g.setLane r l x).efva = g.efva := rfl
@[simp] theorem Group.setLane_efdet (g : Group) (r l : Nat) (x : Word) : (g.setLane r l x).efdet = g.efdet := rfl
@[simp] theorem Group.setLane_efsrc (g : Group) (r l : Nat) (x : Word) : (g.setLane r l x).efsrc = g.efsrc := rfl
@[simp] theorem Group.setLane_bxdet (g : Group) (r l : Nat) (x : Word) : (g.setLane r l x).bxdet = g.bxdet := rfl
@[simp] theorem Group.setLane_bxpc (g : Group) (r l : Nat) (x : Word) : (g.setLane r l x).bxpc = g.bxpc := rfl
@[simp] theorem Group.setLane_rwrec (g : Group) (r l : Nat) (x : Word) : (g.setLane r l x).rwrec = g.rwrec := rfl
@[simp] theorem Group.setLane_rwpc (g : Group) (r l : Nat) (x : Word) : (g.setLane r l x).rwpc = g.rwpc := rfl
@[simp] theorem Group.setLane_clockhi (g : Group) (r l : Nat) (x : Word) : (g.setLane r l x).clockhi = g.clockhi := rfl
@[simp] theorem Group.setLane_pmchi (g : Group) (r l : Nat) (x : Word) : (g.setLane r l x).pmchi = g.pmchi := rfl
@[simp] theorem Group.setLane_trc (g : Group) (r l : Nat) (x : Word) : (g.setLane r l x).trc = g.trc := rfl
@[simp] theorem Group.setLane_part (g : Group) (r l : Nat) (x : Word) : (g.setLane r l x).part = g.part := rfl
@[simp] theorem Group.setLane_partOvf (g : Group) (r l : Nat) (x : Word) : (g.setLane r l x).partOvf = g.partOvf := rfl
@[simp] theorem Group.setLane_rets (g : Group) (r l : Nat) (x : Word) : (g.setLane r l x).rets = g.rets := rfl
@[simp] theorem Group.setLane_atoms (g : Group) (r l : Nat) (x : Word) : (g.setLane r l x).atoms = g.atoms := rfl
@[simp] theorem Group.setLane_bounds (g : Group) (r l : Nat) (x : Word) : (g.setLane r l x).bounds = g.bounds := rfl
@[simp] theorem Group.setLane_late (g : Group) (r l : Nat) (x : Word) : (g.setLane r l x).late = g.late := rfl
@[simp] theorem Group.setLane_gbarUse (g : Group) (r l : Nat) (x : Word) : (g.setLane r l x).gbarUse = g.gbarUse := rfl
@[simp] theorem Group.setLane_gbarIn (g : Group) (r l : Nat) (x : Word) : (g.setLane r l x).gbarIn = g.gbarIn := rfl
@[simp] theorem Group.setLane_mon (g : Group) (r l : Nat) (x : Word) : (g.setLane r l x).mon = g.mon := rfl
@[simp] theorem Group.setLane_held (g : Group) (r l : Nat) (x : Word) : (g.setLane r l x).held = g.held := rfl
@[simp] theorem Group.setLane_bpSkip (g : Group) (r l : Nat) (x : Word) : (g.setLane r l x).bpSkip = g.bpSkip := rfl
@[simp] theorem Group.setLane_inProgress (g : Group) (r l : Nat) (x : Word) : (g.setLane r l x).inProgress = g.inProgress := rfl
@[simp] theorem Group.setLane_stepping (g : Group) (r l : Nat) (x : Word) : (g.setLane r l x).stepping = g.stepping := rfl
@[simp] theorem Group.setLane_rule (g : Group) (r l : Nat) (x : Word) : (g.setLane r l x).rule = g.rule := rfl
@[simp] theorem Group.setLane_replay (g : Group) (r l : Nat) (x : Word) : (g.setLane r l x).replay = g.replay := rfl
@[simp] theorem Group.setLane_term (g : Group) (r l : Nat) (x : Word) : (g.setLane r l x).term = g.term := rfl
@[simp] theorem Group.setLane_unitRaise (g : Group) (r l : Nat) (x : Word) : (g.setLane r l x).unitRaise = g.unitRaise := rfl
@[simp] theorem Group.setLane_forced (g : Group) (r l : Nat) (x : Word) : (g.setLane r l x).forced = g.forced := rfl
@[simp] theorem Group.setLane_lastPc (g : Group) (r l : Nat) (x : Word) : (g.setLane r l x).lastPc = g.lastPc := rfl
@[simp] theorem Group.setLane_lastWord (g : Group) (r l : Nat) (x : Word) : (g.setLane r l x).lastWord = g.lastWord := rfl
@[simp] theorem Group.setLane_lastExec (g : Group) (r l : Nat) (x : Word) : (g.setLane r l x).lastExec = g.lastExec := rfl
@[simp] theorem Group.setLane_lastCode (g : Group) (r l : Nat) (x : Word) : (g.setLane r l x).lastCode = g.lastCode := rfl
@[simp] theorem Group.setLane_lastGraft (g : Group) (r l : Nat) (x : Word) : (g.setLane r l x).lastGraft = g.lastGraft := rfl
@[simp] theorem Group.setLane_stopCause (g : Group) (r l : Nat) (x : Word) : (g.setLane r l x).stopCause = g.stopCause := rfl

/-! `Group.setTag` -/

@[simp] theorem Group.setTag_live (g : Group) (r : Nat) (t : BitVec 5) : (g.setTag r t).live = g.live := rfl
@[simp] theorem Group.setTag_key (g : Group) (r : Nat) (t : BitVec 5) : (g.setTag r t).key = g.key := rfl
@[simp] theorem Group.setTag_ctx (g : Group) (r : Nat) (t : BitVec 5) : (g.setTag r t).ctx = g.ctx := rfl
@[simp] theorem Group.setTag_team (g : Group) (r : Nat) (t : BitVec 5) : (g.setTag r t).team = g.team := rfl
@[simp] theorem Group.setTag_lslot (g : Group) (r : Nat) (t : BitVec 5) : (g.setTag r t).lslot = g.lslot := rfl
@[simp] theorem Group.setTag_teamIdx (g : Group) (r : Nat) (t : BitVec 5) : (g.setTag r t).teamIdx = g.teamIdx := rfl
@[simp] theorem Group.setTag_grp (g : Group) (r : Nat) (t : BitVec 5) : (g.setTag r t).grp = g.grp := rfl
@[simp] theorem Group.setTag_core (g : Group) (r : Nat) (t : BitVec 5) : (g.setTag r t).core = g.core := rfl
@[simp] theorem Group.setTag_slot (g : Group) (r : Nat) (t : BitVec 5) : (g.setTag r t).slot = g.slot := rfl
@[simp] theorem Group.setTag_age (g : Group) (r : Nat) (t : BitVec 5) : (g.setTag r t).age = g.age := rfl
@[simp] theorem Group.setTag_priv (g : Group) (r : Nat) (t : BitVec 5) : (g.setTag r t).priv = g.priv := rfl
@[simp] theorem Group.setTag_vregs (g : Group) (r : Nat) (t : BitVec 5) : (g.setTag r t).vregs = g.vregs := rfl
@[simp] theorem Group.setTag_sregs (g : Group) (r : Nat) (t : BitVec 5) : (g.setTag r t).sregs = g.sregs := rfl
@[simp] theorem Group.setTag_wdLimit (g : Group) (r : Nat) (t : BitVec 5) : (g.setTag r t).wdLimit = g.wdLimit := rfl
@[simp] theorem Group.setTag_coop (g : Group) (r : Nat) (t : BitVec 5) : (g.setTag r t).coop = g.coop := rfl
@[simp] theorem Group.setTag_st (g : Group) (r : Nat) (t : BitVec 5) : (g.setTag r t).st = g.st := rfl
@[simp] theorem Group.setTag_stLeft (g : Group) (r : Nat) (t : BitVec 5) : (g.setTag r t).stLeft = g.stLeft := rfl
@[simp] theorem Group.setTag_back (g : Group) (r : Nat) (t : BitVec 5) : (g.setTag r t).back = g.back := rfl
@[simp] theorem Group.setTag_reason (g : Group) (r : Nat) (t : BitVec 5) : (g.setTag r t).reason = g.reason := rfl
@[simp] theorem Group.setTag_wait (g : Group) (r : Nat) (t : BitVec 5) : (g.setTag r t).wait = g.wait := rfl
@[simp] theorem Group.setTag_status (g : Group) (r : Nat) (t : BitVec 5) : (g.setTag r t).status = g.status := rfl
@[simp] theorem Group.setTag_cancelReq (g : Group) (r : Nat) (t : BitVec 5) : (g.setTag r t).cancelReq = g.cancelReq := rfl
@[simp] theorem Group.setTag_freezeReq (g : Group) (r : Nat) (t : BitVec 5) : (g.setTag r t).freezeReq = g.freezeReq := rfl
@[simp] theorem Group.setTag_pc (g : Group) (r : Nat) (t : BitVec 5) : (g.setTag r t).pc = g.pc := rfl
@[simp] theorem Group.setTag_s (g : Group) (r : Nat) (t : BitVec 5) : (g.setTag r t).s = g.s := rfl
@[simp] theorem Group.setTag_v (g : Group) (r : Nat) (t : BitVec 5) : (g.setTag r t).v = g.v := rfl
@[simp] theorem Group.setTag_emptyS (g : Group) (r : Nat) (t : BitVec 5) : (g.setTag r t).emptyS = g.emptyS := rfl
@[simp] theorem Group.setTag_emptyV (g : Group) (r : Nat) (t : BitVec 5) : (g.setTag r t).emptyV = g.emptyV := rfl
@[simp] theorem Group.setTag_exec (g : Group) (r : Nat) (t : BitVec 5) : (g.setTag r t).exec = g.exec := rfl
@[simp] theorem Group.setTag_cmask (g : Group) (r : Nat) (t : BitVec 5) : (g.setTag r t).cmask = g.cmask := rfl
@[simp] theorem Group.setTag_savedexec (g : Group) (r : Nat) (t : BitVec 5) : (g.setTag r t).savedexec = g.savedexec := rfl
@[simp] theorem Group.setTag_scc (g : Group) (r : Nat) (t : BitVec 5) : (g.setTag r t).scc = g.scc := rfl
@[simp] theorem Group.setTag_mode (g : Group) (r : Nat) (t : BitVec 5) : (g.setTag r t).mode = g.mode := rfl
@[simp] theorem Group.setTag_fmts (g : Group) (r : Nat) (t : BitVec 5) : (g.setTag r t).fmts = g.fmts := rfl
@[simp] theorem Group.setTag_dphase (g : Group) (r : Nat) (t : BitVec 5) : (g.setTag r t).dphase = g.dphase := rfl
@[simp] theorem Group.setTag_unitPhase (g : Group) (r : Nat) (t : BitVec 5) : (g.setTag r t).unitPhase = g.unitPhase := rfl
@[simp] theorem Group.setTag_chain (g : Group) (r : Nat) (t : BitVec 5) : (g.setTag r t).chain = g.chain := rfl
@[simp] theorem Group.setTag_cnt (g : Group) (r : Nat) (t : BitVec 5) : (g.setTag r t).cnt = g.cnt := rfl
@[simp] theorem Group.setTag_wdcount (g : Group) (r : Nat) (t : BitVec 5) : (g.setTag r t).wdcount = g.wdcount := rfl
@[simp] theorem Group.setTag_tr (g : Group) (r : Nat) (t : BitVec 5) : (g.setTag r t).tr = g.tr := rfl
@[simp] theorem Group.setTag_xva (g : Group) (r : Nat) (t : BitVec 5) : (g.setTag r t).xva = g.xva := rfl
@[simp] theorem Group.setTag_xdet (g : Group) (r : Nat) (t : BitVec 5) : (g.setTag r t).xdet = g.xdet := rfl
@[simp] theorem Group.setTag_efva (g : Group) (r : Nat) (t : BitVec 5) : (g.setTag r t).efva = g.efva := rfl
@[simp] theorem Group.setTag_efdet (g : Group) (r : Nat) (t : BitVec 5) : (g.setTag r t).efdet = g.efdet := rfl
@[simp] theorem Group.setTag_efsrc (g : Group) (r : Nat) (t : BitVec 5) : (g.setTag r t).efsrc = g.efsrc := rfl
@[simp] theorem Group.setTag_bxdet (g : Group) (r : Nat) (t : BitVec 5) : (g.setTag r t).bxdet = g.bxdet := rfl
@[simp] theorem Group.setTag_bxpc (g : Group) (r : Nat) (t : BitVec 5) : (g.setTag r t).bxpc = g.bxpc := rfl
@[simp] theorem Group.setTag_rwrec (g : Group) (r : Nat) (t : BitVec 5) : (g.setTag r t).rwrec = g.rwrec := rfl
@[simp] theorem Group.setTag_rwpc (g : Group) (r : Nat) (t : BitVec 5) : (g.setTag r t).rwpc = g.rwpc := rfl
@[simp] theorem Group.setTag_clockhi (g : Group) (r : Nat) (t : BitVec 5) : (g.setTag r t).clockhi = g.clockhi := rfl
@[simp] theorem Group.setTag_pmchi (g : Group) (r : Nat) (t : BitVec 5) : (g.setTag r t).pmchi = g.pmchi := rfl
@[simp] theorem Group.setTag_trc (g : Group) (r : Nat) (t : BitVec 5) : (g.setTag r t).trc = g.trc := rfl
@[simp] theorem Group.setTag_part (g : Group) (r : Nat) (t : BitVec 5) : (g.setTag r t).part = g.part := rfl
@[simp] theorem Group.setTag_partOvf (g : Group) (r : Nat) (t : BitVec 5) : (g.setTag r t).partOvf = g.partOvf := rfl
@[simp] theorem Group.setTag_rets (g : Group) (r : Nat) (t : BitVec 5) : (g.setTag r t).rets = g.rets := rfl
@[simp] theorem Group.setTag_atoms (g : Group) (r : Nat) (t : BitVec 5) : (g.setTag r t).atoms = g.atoms := rfl
@[simp] theorem Group.setTag_bounds (g : Group) (r : Nat) (t : BitVec 5) : (g.setTag r t).bounds = g.bounds := rfl
@[simp] theorem Group.setTag_bad (g : Group) (r : Nat) (t : BitVec 5) : (g.setTag r t).bad = g.bad := rfl
@[simp] theorem Group.setTag_late (g : Group) (r : Nat) (t : BitVec 5) : (g.setTag r t).late = g.late := rfl
@[simp] theorem Group.setTag_gbarUse (g : Group) (r : Nat) (t : BitVec 5) : (g.setTag r t).gbarUse = g.gbarUse := rfl
@[simp] theorem Group.setTag_gbarIn (g : Group) (r : Nat) (t : BitVec 5) : (g.setTag r t).gbarIn = g.gbarIn := rfl
@[simp] theorem Group.setTag_mon (g : Group) (r : Nat) (t : BitVec 5) : (g.setTag r t).mon = g.mon := rfl
@[simp] theorem Group.setTag_held (g : Group) (r : Nat) (t : BitVec 5) : (g.setTag r t).held = g.held := rfl
@[simp] theorem Group.setTag_bpSkip (g : Group) (r : Nat) (t : BitVec 5) : (g.setTag r t).bpSkip = g.bpSkip := rfl
@[simp] theorem Group.setTag_inProgress (g : Group) (r : Nat) (t : BitVec 5) : (g.setTag r t).inProgress = g.inProgress := rfl
@[simp] theorem Group.setTag_stepping (g : Group) (r : Nat) (t : BitVec 5) : (g.setTag r t).stepping = g.stepping := rfl
@[simp] theorem Group.setTag_rule (g : Group) (r : Nat) (t : BitVec 5) : (g.setTag r t).rule = g.rule := rfl
@[simp] theorem Group.setTag_replay (g : Group) (r : Nat) (t : BitVec 5) : (g.setTag r t).replay = g.replay := rfl
@[simp] theorem Group.setTag_term (g : Group) (r : Nat) (t : BitVec 5) : (g.setTag r t).term = g.term := rfl
@[simp] theorem Group.setTag_unitRaise (g : Group) (r : Nat) (t : BitVec 5) : (g.setTag r t).unitRaise = g.unitRaise := rfl
@[simp] theorem Group.setTag_forced (g : Group) (r : Nat) (t : BitVec 5) : (g.setTag r t).forced = g.forced := rfl
@[simp] theorem Group.setTag_lastPc (g : Group) (r : Nat) (t : BitVec 5) : (g.setTag r t).lastPc = g.lastPc := rfl
@[simp] theorem Group.setTag_lastWord (g : Group) (r : Nat) (t : BitVec 5) : (g.setTag r t).lastWord = g.lastWord := rfl
@[simp] theorem Group.setTag_lastExec (g : Group) (r : Nat) (t : BitVec 5) : (g.setTag r t).lastExec = g.lastExec := rfl
@[simp] theorem Group.setTag_lastCode (g : Group) (r : Nat) (t : BitVec 5) : (g.setTag r t).lastCode = g.lastCode := rfl
@[simp] theorem Group.setTag_lastGraft (g : Group) (r : Nat) (t : BitVec 5) : (g.setTag r t).lastGraft = g.lastGraft := rfl
@[simp] theorem Group.setTag_stopCause (g : Group) (r : Nat) (t : BitVec 5) : (g.setTag r t).stopCause = g.stopCause := rfl

/-! `Group.setFmt` -/

@[simp] theorem Group.setFmt_live (g : Group) (k : Nat) (x : Word) : (g.setFmt k x).live = g.live := rfl
@[simp] theorem Group.setFmt_key (g : Group) (k : Nat) (x : Word) : (g.setFmt k x).key = g.key := rfl
@[simp] theorem Group.setFmt_ctx (g : Group) (k : Nat) (x : Word) : (g.setFmt k x).ctx = g.ctx := rfl
@[simp] theorem Group.setFmt_team (g : Group) (k : Nat) (x : Word) : (g.setFmt k x).team = g.team := rfl
@[simp] theorem Group.setFmt_lslot (g : Group) (k : Nat) (x : Word) : (g.setFmt k x).lslot = g.lslot := rfl
@[simp] theorem Group.setFmt_teamIdx (g : Group) (k : Nat) (x : Word) : (g.setFmt k x).teamIdx = g.teamIdx := rfl
@[simp] theorem Group.setFmt_grp (g : Group) (k : Nat) (x : Word) : (g.setFmt k x).grp = g.grp := rfl
@[simp] theorem Group.setFmt_core (g : Group) (k : Nat) (x : Word) : (g.setFmt k x).core = g.core := rfl
@[simp] theorem Group.setFmt_slot (g : Group) (k : Nat) (x : Word) : (g.setFmt k x).slot = g.slot := rfl
@[simp] theorem Group.setFmt_age (g : Group) (k : Nat) (x : Word) : (g.setFmt k x).age = g.age := rfl
@[simp] theorem Group.setFmt_priv (g : Group) (k : Nat) (x : Word) : (g.setFmt k x).priv = g.priv := rfl
@[simp] theorem Group.setFmt_vregs (g : Group) (k : Nat) (x : Word) : (g.setFmt k x).vregs = g.vregs := rfl
@[simp] theorem Group.setFmt_sregs (g : Group) (k : Nat) (x : Word) : (g.setFmt k x).sregs = g.sregs := rfl
@[simp] theorem Group.setFmt_wdLimit (g : Group) (k : Nat) (x : Word) : (g.setFmt k x).wdLimit = g.wdLimit := rfl
@[simp] theorem Group.setFmt_coop (g : Group) (k : Nat) (x : Word) : (g.setFmt k x).coop = g.coop := rfl
@[simp] theorem Group.setFmt_st (g : Group) (k : Nat) (x : Word) : (g.setFmt k x).st = g.st := rfl
@[simp] theorem Group.setFmt_stLeft (g : Group) (k : Nat) (x : Word) : (g.setFmt k x).stLeft = g.stLeft := rfl
@[simp] theorem Group.setFmt_back (g : Group) (k : Nat) (x : Word) : (g.setFmt k x).back = g.back := rfl
@[simp] theorem Group.setFmt_reason (g : Group) (k : Nat) (x : Word) : (g.setFmt k x).reason = g.reason := rfl
@[simp] theorem Group.setFmt_wait (g : Group) (k : Nat) (x : Word) : (g.setFmt k x).wait = g.wait := rfl
@[simp] theorem Group.setFmt_status (g : Group) (k : Nat) (x : Word) : (g.setFmt k x).status = g.status := rfl
@[simp] theorem Group.setFmt_cancelReq (g : Group) (k : Nat) (x : Word) : (g.setFmt k x).cancelReq = g.cancelReq := rfl
@[simp] theorem Group.setFmt_freezeReq (g : Group) (k : Nat) (x : Word) : (g.setFmt k x).freezeReq = g.freezeReq := rfl
@[simp] theorem Group.setFmt_pc (g : Group) (k : Nat) (x : Word) : (g.setFmt k x).pc = g.pc := rfl
@[simp] theorem Group.setFmt_s (g : Group) (k : Nat) (x : Word) : (g.setFmt k x).s = g.s := rfl
@[simp] theorem Group.setFmt_v (g : Group) (k : Nat) (x : Word) : (g.setFmt k x).v = g.v := rfl
@[simp] theorem Group.setFmt_tags (g : Group) (k : Nat) (x : Word) : (g.setFmt k x).tags = g.tags := rfl
@[simp] theorem Group.setFmt_emptyS (g : Group) (k : Nat) (x : Word) : (g.setFmt k x).emptyS = g.emptyS := rfl
@[simp] theorem Group.setFmt_emptyV (g : Group) (k : Nat) (x : Word) : (g.setFmt k x).emptyV = g.emptyV := rfl
@[simp] theorem Group.setFmt_exec (g : Group) (k : Nat) (x : Word) : (g.setFmt k x).exec = g.exec := rfl
@[simp] theorem Group.setFmt_cmask (g : Group) (k : Nat) (x : Word) : (g.setFmt k x).cmask = g.cmask := rfl
@[simp] theorem Group.setFmt_savedexec (g : Group) (k : Nat) (x : Word) : (g.setFmt k x).savedexec = g.savedexec := rfl
@[simp] theorem Group.setFmt_scc (g : Group) (k : Nat) (x : Word) : (g.setFmt k x).scc = g.scc := rfl
@[simp] theorem Group.setFmt_mode (g : Group) (k : Nat) (x : Word) : (g.setFmt k x).mode = g.mode := rfl
@[simp] theorem Group.setFmt_dphase (g : Group) (k : Nat) (x : Word) : (g.setFmt k x).dphase = g.dphase := rfl
@[simp] theorem Group.setFmt_unitPhase (g : Group) (k : Nat) (x : Word) : (g.setFmt k x).unitPhase = g.unitPhase := rfl
@[simp] theorem Group.setFmt_chain (g : Group) (k : Nat) (x : Word) : (g.setFmt k x).chain = g.chain := rfl
@[simp] theorem Group.setFmt_cnt (g : Group) (k : Nat) (x : Word) : (g.setFmt k x).cnt = g.cnt := rfl
@[simp] theorem Group.setFmt_wdcount (g : Group) (k : Nat) (x : Word) : (g.setFmt k x).wdcount = g.wdcount := rfl
@[simp] theorem Group.setFmt_tr (g : Group) (k : Nat) (x : Word) : (g.setFmt k x).tr = g.tr := rfl
@[simp] theorem Group.setFmt_xva (g : Group) (k : Nat) (x : Word) : (g.setFmt k x).xva = g.xva := rfl
@[simp] theorem Group.setFmt_xdet (g : Group) (k : Nat) (x : Word) : (g.setFmt k x).xdet = g.xdet := rfl
@[simp] theorem Group.setFmt_efva (g : Group) (k : Nat) (x : Word) : (g.setFmt k x).efva = g.efva := rfl
@[simp] theorem Group.setFmt_efdet (g : Group) (k : Nat) (x : Word) : (g.setFmt k x).efdet = g.efdet := rfl
@[simp] theorem Group.setFmt_efsrc (g : Group) (k : Nat) (x : Word) : (g.setFmt k x).efsrc = g.efsrc := rfl
@[simp] theorem Group.setFmt_bxdet (g : Group) (k : Nat) (x : Word) : (g.setFmt k x).bxdet = g.bxdet := rfl
@[simp] theorem Group.setFmt_bxpc (g : Group) (k : Nat) (x : Word) : (g.setFmt k x).bxpc = g.bxpc := rfl
@[simp] theorem Group.setFmt_rwrec (g : Group) (k : Nat) (x : Word) : (g.setFmt k x).rwrec = g.rwrec := rfl
@[simp] theorem Group.setFmt_rwpc (g : Group) (k : Nat) (x : Word) : (g.setFmt k x).rwpc = g.rwpc := rfl
@[simp] theorem Group.setFmt_clockhi (g : Group) (k : Nat) (x : Word) : (g.setFmt k x).clockhi = g.clockhi := rfl
@[simp] theorem Group.setFmt_pmchi (g : Group) (k : Nat) (x : Word) : (g.setFmt k x).pmchi = g.pmchi := rfl
@[simp] theorem Group.setFmt_trc (g : Group) (k : Nat) (x : Word) : (g.setFmt k x).trc = g.trc := rfl
@[simp] theorem Group.setFmt_part (g : Group) (k : Nat) (x : Word) : (g.setFmt k x).part = g.part := rfl
@[simp] theorem Group.setFmt_partOvf (g : Group) (k : Nat) (x : Word) : (g.setFmt k x).partOvf = g.partOvf := rfl
@[simp] theorem Group.setFmt_rets (g : Group) (k : Nat) (x : Word) : (g.setFmt k x).rets = g.rets := rfl
@[simp] theorem Group.setFmt_atoms (g : Group) (k : Nat) (x : Word) : (g.setFmt k x).atoms = g.atoms := rfl
@[simp] theorem Group.setFmt_bounds (g : Group) (k : Nat) (x : Word) : (g.setFmt k x).bounds = g.bounds := rfl
@[simp] theorem Group.setFmt_bad (g : Group) (k : Nat) (x : Word) : (g.setFmt k x).bad = g.bad := rfl
@[simp] theorem Group.setFmt_late (g : Group) (k : Nat) (x : Word) : (g.setFmt k x).late = g.late := rfl
@[simp] theorem Group.setFmt_gbarUse (g : Group) (k : Nat) (x : Word) : (g.setFmt k x).gbarUse = g.gbarUse := rfl
@[simp] theorem Group.setFmt_gbarIn (g : Group) (k : Nat) (x : Word) : (g.setFmt k x).gbarIn = g.gbarIn := rfl
@[simp] theorem Group.setFmt_mon (g : Group) (k : Nat) (x : Word) : (g.setFmt k x).mon = g.mon := rfl
@[simp] theorem Group.setFmt_held (g : Group) (k : Nat) (x : Word) : (g.setFmt k x).held = g.held := rfl
@[simp] theorem Group.setFmt_bpSkip (g : Group) (k : Nat) (x : Word) : (g.setFmt k x).bpSkip = g.bpSkip := rfl
@[simp] theorem Group.setFmt_inProgress (g : Group) (k : Nat) (x : Word) : (g.setFmt k x).inProgress = g.inProgress := rfl
@[simp] theorem Group.setFmt_stepping (g : Group) (k : Nat) (x : Word) : (g.setFmt k x).stepping = g.stepping := rfl
@[simp] theorem Group.setFmt_rule (g : Group) (k : Nat) (x : Word) : (g.setFmt k x).rule = g.rule := rfl
@[simp] theorem Group.setFmt_replay (g : Group) (k : Nat) (x : Word) : (g.setFmt k x).replay = g.replay := rfl
@[simp] theorem Group.setFmt_term (g : Group) (k : Nat) (x : Word) : (g.setFmt k x).term = g.term := rfl
@[simp] theorem Group.setFmt_unitRaise (g : Group) (k : Nat) (x : Word) : (g.setFmt k x).unitRaise = g.unitRaise := rfl
@[simp] theorem Group.setFmt_forced (g : Group) (k : Nat) (x : Word) : (g.setFmt k x).forced = g.forced := rfl
@[simp] theorem Group.setFmt_lastPc (g : Group) (k : Nat) (x : Word) : (g.setFmt k x).lastPc = g.lastPc := rfl
@[simp] theorem Group.setFmt_lastWord (g : Group) (k : Nat) (x : Word) : (g.setFmt k x).lastWord = g.lastWord := rfl
@[simp] theorem Group.setFmt_lastExec (g : Group) (k : Nat) (x : Word) : (g.setFmt k x).lastExec = g.lastExec := rfl
@[simp] theorem Group.setFmt_lastCode (g : Group) (k : Nat) (x : Word) : (g.setFmt k x).lastCode = g.lastCode := rfl
@[simp] theorem Group.setFmt_lastGraft (g : Group) (k : Nat) (x : Word) : (g.setFmt k x).lastGraft = g.lastGraft := rfl
@[simp] theorem Group.setFmt_stopCause (g : Group) (k : Nat) (x : Word) : (g.setFmt k x).stopCause = g.stopCause := rfl

/-! `Group.setScc` -/

@[simp] theorem Group.setScc_live (g : Group) (b : Bool) : (g.setScc b).live = g.live := rfl
@[simp] theorem Group.setScc_key (g : Group) (b : Bool) : (g.setScc b).key = g.key := rfl
@[simp] theorem Group.setScc_ctx (g : Group) (b : Bool) : (g.setScc b).ctx = g.ctx := rfl
@[simp] theorem Group.setScc_team (g : Group) (b : Bool) : (g.setScc b).team = g.team := rfl
@[simp] theorem Group.setScc_lslot (g : Group) (b : Bool) : (g.setScc b).lslot = g.lslot := rfl
@[simp] theorem Group.setScc_teamIdx (g : Group) (b : Bool) : (g.setScc b).teamIdx = g.teamIdx := rfl
@[simp] theorem Group.setScc_grp (g : Group) (b : Bool) : (g.setScc b).grp = g.grp := rfl
@[simp] theorem Group.setScc_core (g : Group) (b : Bool) : (g.setScc b).core = g.core := rfl
@[simp] theorem Group.setScc_slot (g : Group) (b : Bool) : (g.setScc b).slot = g.slot := rfl
@[simp] theorem Group.setScc_age (g : Group) (b : Bool) : (g.setScc b).age = g.age := rfl
@[simp] theorem Group.setScc_priv (g : Group) (b : Bool) : (g.setScc b).priv = g.priv := rfl
@[simp] theorem Group.setScc_vregs (g : Group) (b : Bool) : (g.setScc b).vregs = g.vregs := rfl
@[simp] theorem Group.setScc_sregs (g : Group) (b : Bool) : (g.setScc b).sregs = g.sregs := rfl
@[simp] theorem Group.setScc_wdLimit (g : Group) (b : Bool) : (g.setScc b).wdLimit = g.wdLimit := rfl
@[simp] theorem Group.setScc_coop (g : Group) (b : Bool) : (g.setScc b).coop = g.coop := rfl
@[simp] theorem Group.setScc_st (g : Group) (b : Bool) : (g.setScc b).st = g.st := rfl
@[simp] theorem Group.setScc_stLeft (g : Group) (b : Bool) : (g.setScc b).stLeft = g.stLeft := rfl
@[simp] theorem Group.setScc_back (g : Group) (b : Bool) : (g.setScc b).back = g.back := rfl
@[simp] theorem Group.setScc_reason (g : Group) (b : Bool) : (g.setScc b).reason = g.reason := rfl
@[simp] theorem Group.setScc_wait (g : Group) (b : Bool) : (g.setScc b).wait = g.wait := rfl
@[simp] theorem Group.setScc_status (g : Group) (b : Bool) : (g.setScc b).status = g.status := rfl
@[simp] theorem Group.setScc_cancelReq (g : Group) (b : Bool) : (g.setScc b).cancelReq = g.cancelReq := rfl
@[simp] theorem Group.setScc_freezeReq (g : Group) (b : Bool) : (g.setScc b).freezeReq = g.freezeReq := rfl
@[simp] theorem Group.setScc_pc (g : Group) (b : Bool) : (g.setScc b).pc = g.pc := rfl
@[simp] theorem Group.setScc_s (g : Group) (b : Bool) : (g.setScc b).s = g.s := rfl
@[simp] theorem Group.setScc_v (g : Group) (b : Bool) : (g.setScc b).v = g.v := rfl
@[simp] theorem Group.setScc_tags (g : Group) (b : Bool) : (g.setScc b).tags = g.tags := rfl
@[simp] theorem Group.setScc_emptyS (g : Group) (b : Bool) : (g.setScc b).emptyS = g.emptyS := rfl
@[simp] theorem Group.setScc_emptyV (g : Group) (b : Bool) : (g.setScc b).emptyV = g.emptyV := rfl
@[simp] theorem Group.setScc_exec (g : Group) (b : Bool) : (g.setScc b).exec = g.exec := rfl
@[simp] theorem Group.setScc_cmask (g : Group) (b : Bool) : (g.setScc b).cmask = g.cmask := rfl
@[simp] theorem Group.setScc_savedexec (g : Group) (b : Bool) : (g.setScc b).savedexec = g.savedexec := rfl
@[simp] theorem Group.setScc_mode (g : Group) (b : Bool) : (g.setScc b).mode = g.mode := rfl
@[simp] theorem Group.setScc_fmts (g : Group) (b : Bool) : (g.setScc b).fmts = g.fmts := rfl
@[simp] theorem Group.setScc_dphase (g : Group) (b : Bool) : (g.setScc b).dphase = g.dphase := rfl
@[simp] theorem Group.setScc_unitPhase (g : Group) (b : Bool) : (g.setScc b).unitPhase = g.unitPhase := rfl
@[simp] theorem Group.setScc_chain (g : Group) (b : Bool) : (g.setScc b).chain = g.chain := rfl
@[simp] theorem Group.setScc_cnt (g : Group) (b : Bool) : (g.setScc b).cnt = g.cnt := rfl
@[simp] theorem Group.setScc_wdcount (g : Group) (b : Bool) : (g.setScc b).wdcount = g.wdcount := rfl
@[simp] theorem Group.setScc_tr (g : Group) (b : Bool) : (g.setScc b).tr = g.tr := rfl
@[simp] theorem Group.setScc_xva (g : Group) (b : Bool) : (g.setScc b).xva = g.xva := rfl
@[simp] theorem Group.setScc_xdet (g : Group) (b : Bool) : (g.setScc b).xdet = g.xdet := rfl
@[simp] theorem Group.setScc_efva (g : Group) (b : Bool) : (g.setScc b).efva = g.efva := rfl
@[simp] theorem Group.setScc_efdet (g : Group) (b : Bool) : (g.setScc b).efdet = g.efdet := rfl
@[simp] theorem Group.setScc_efsrc (g : Group) (b : Bool) : (g.setScc b).efsrc = g.efsrc := rfl
@[simp] theorem Group.setScc_bxdet (g : Group) (b : Bool) : (g.setScc b).bxdet = g.bxdet := rfl
@[simp] theorem Group.setScc_bxpc (g : Group) (b : Bool) : (g.setScc b).bxpc = g.bxpc := rfl
@[simp] theorem Group.setScc_rwrec (g : Group) (b : Bool) : (g.setScc b).rwrec = g.rwrec := rfl
@[simp] theorem Group.setScc_rwpc (g : Group) (b : Bool) : (g.setScc b).rwpc = g.rwpc := rfl
@[simp] theorem Group.setScc_clockhi (g : Group) (b : Bool) : (g.setScc b).clockhi = g.clockhi := rfl
@[simp] theorem Group.setScc_pmchi (g : Group) (b : Bool) : (g.setScc b).pmchi = g.pmchi := rfl
@[simp] theorem Group.setScc_trc (g : Group) (b : Bool) : (g.setScc b).trc = g.trc := rfl
@[simp] theorem Group.setScc_part (g : Group) (b : Bool) : (g.setScc b).part = g.part := rfl
@[simp] theorem Group.setScc_partOvf (g : Group) (b : Bool) : (g.setScc b).partOvf = g.partOvf := rfl
@[simp] theorem Group.setScc_rets (g : Group) (b : Bool) : (g.setScc b).rets = g.rets := rfl
@[simp] theorem Group.setScc_atoms (g : Group) (b : Bool) : (g.setScc b).atoms = g.atoms := rfl
@[simp] theorem Group.setScc_bounds (g : Group) (b : Bool) : (g.setScc b).bounds = g.bounds := rfl
@[simp] theorem Group.setScc_bad (g : Group) (b : Bool) : (g.setScc b).bad = g.bad := rfl
@[simp] theorem Group.setScc_late (g : Group) (b : Bool) : (g.setScc b).late = g.late := rfl
@[simp] theorem Group.setScc_gbarUse (g : Group) (b : Bool) : (g.setScc b).gbarUse = g.gbarUse := rfl
@[simp] theorem Group.setScc_gbarIn (g : Group) (b : Bool) : (g.setScc b).gbarIn = g.gbarIn := rfl
@[simp] theorem Group.setScc_mon (g : Group) (b : Bool) : (g.setScc b).mon = g.mon := rfl
@[simp] theorem Group.setScc_held (g : Group) (b : Bool) : (g.setScc b).held = g.held := rfl
@[simp] theorem Group.setScc_bpSkip (g : Group) (b : Bool) : (g.setScc b).bpSkip = g.bpSkip := rfl
@[simp] theorem Group.setScc_inProgress (g : Group) (b : Bool) : (g.setScc b).inProgress = g.inProgress := rfl
@[simp] theorem Group.setScc_stepping (g : Group) (b : Bool) : (g.setScc b).stepping = g.stepping := rfl
@[simp] theorem Group.setScc_rule (g : Group) (b : Bool) : (g.setScc b).rule = g.rule := rfl
@[simp] theorem Group.setScc_replay (g : Group) (b : Bool) : (g.setScc b).replay = g.replay := rfl
@[simp] theorem Group.setScc_term (g : Group) (b : Bool) : (g.setScc b).term = g.term := rfl
@[simp] theorem Group.setScc_unitRaise (g : Group) (b : Bool) : (g.setScc b).unitRaise = g.unitRaise := rfl
@[simp] theorem Group.setScc_forced (g : Group) (b : Bool) : (g.setScc b).forced = g.forced := rfl
@[simp] theorem Group.setScc_lastPc (g : Group) (b : Bool) : (g.setScc b).lastPc = g.lastPc := rfl
@[simp] theorem Group.setScc_lastWord (g : Group) (b : Bool) : (g.setScc b).lastWord = g.lastWord := rfl
@[simp] theorem Group.setScc_lastExec (g : Group) (b : Bool) : (g.setScc b).lastExec = g.lastExec := rfl
@[simp] theorem Group.setScc_lastCode (g : Group) (b : Bool) : (g.setScc b).lastCode = g.lastCode := rfl
@[simp] theorem Group.setScc_lastGraft (g : Group) (b : Bool) : (g.setScc b).lastGraft = g.lastGraft := rfl
@[simp] theorem Group.setScc_stopCause (g : Group) (b : Bool) : (g.setScc b).stopCause = g.stopCause := rfl

/-! `Group.addOp` -/

@[simp] theorem Group.addOp_live (g : Group) (c i : Nat) : (g.addOp c i).live = g.live := rfl
@[simp] theorem Group.addOp_key (g : Group) (c i : Nat) : (g.addOp c i).key = g.key := rfl
@[simp] theorem Group.addOp_ctx (g : Group) (c i : Nat) : (g.addOp c i).ctx = g.ctx := rfl
@[simp] theorem Group.addOp_team (g : Group) (c i : Nat) : (g.addOp c i).team = g.team := rfl
@[simp] theorem Group.addOp_lslot (g : Group) (c i : Nat) : (g.addOp c i).lslot = g.lslot := rfl
@[simp] theorem Group.addOp_teamIdx (g : Group) (c i : Nat) : (g.addOp c i).teamIdx = g.teamIdx := rfl
@[simp] theorem Group.addOp_grp (g : Group) (c i : Nat) : (g.addOp c i).grp = g.grp := rfl
@[simp] theorem Group.addOp_core (g : Group) (c i : Nat) : (g.addOp c i).core = g.core := rfl
@[simp] theorem Group.addOp_slot (g : Group) (c i : Nat) : (g.addOp c i).slot = g.slot := rfl
@[simp] theorem Group.addOp_age (g : Group) (c i : Nat) : (g.addOp c i).age = g.age := rfl
@[simp] theorem Group.addOp_priv (g : Group) (c i : Nat) : (g.addOp c i).priv = g.priv := rfl
@[simp] theorem Group.addOp_vregs (g : Group) (c i : Nat) : (g.addOp c i).vregs = g.vregs := rfl
@[simp] theorem Group.addOp_sregs (g : Group) (c i : Nat) : (g.addOp c i).sregs = g.sregs := rfl
@[simp] theorem Group.addOp_wdLimit (g : Group) (c i : Nat) : (g.addOp c i).wdLimit = g.wdLimit := rfl
@[simp] theorem Group.addOp_coop (g : Group) (c i : Nat) : (g.addOp c i).coop = g.coop := rfl
@[simp] theorem Group.addOp_st (g : Group) (c i : Nat) : (g.addOp c i).st = g.st := rfl
@[simp] theorem Group.addOp_stLeft (g : Group) (c i : Nat) : (g.addOp c i).stLeft = g.stLeft := rfl
@[simp] theorem Group.addOp_back (g : Group) (c i : Nat) : (g.addOp c i).back = g.back := rfl
@[simp] theorem Group.addOp_reason (g : Group) (c i : Nat) : (g.addOp c i).reason = g.reason := rfl
@[simp] theorem Group.addOp_wait (g : Group) (c i : Nat) : (g.addOp c i).wait = g.wait := rfl
@[simp] theorem Group.addOp_status (g : Group) (c i : Nat) : (g.addOp c i).status = g.status := rfl
@[simp] theorem Group.addOp_cancelReq (g : Group) (c i : Nat) : (g.addOp c i).cancelReq = g.cancelReq := rfl
@[simp] theorem Group.addOp_freezeReq (g : Group) (c i : Nat) : (g.addOp c i).freezeReq = g.freezeReq := rfl
@[simp] theorem Group.addOp_pc (g : Group) (c i : Nat) : (g.addOp c i).pc = g.pc := rfl
@[simp] theorem Group.addOp_s (g : Group) (c i : Nat) : (g.addOp c i).s = g.s := rfl
@[simp] theorem Group.addOp_v (g : Group) (c i : Nat) : (g.addOp c i).v = g.v := rfl
@[simp] theorem Group.addOp_tags (g : Group) (c i : Nat) : (g.addOp c i).tags = g.tags := rfl
@[simp] theorem Group.addOp_emptyS (g : Group) (c i : Nat) : (g.addOp c i).emptyS = g.emptyS := rfl
@[simp] theorem Group.addOp_emptyV (g : Group) (c i : Nat) : (g.addOp c i).emptyV = g.emptyV := rfl
@[simp] theorem Group.addOp_exec (g : Group) (c i : Nat) : (g.addOp c i).exec = g.exec := rfl
@[simp] theorem Group.addOp_cmask (g : Group) (c i : Nat) : (g.addOp c i).cmask = g.cmask := rfl
@[simp] theorem Group.addOp_savedexec (g : Group) (c i : Nat) : (g.addOp c i).savedexec = g.savedexec := rfl
@[simp] theorem Group.addOp_scc (g : Group) (c i : Nat) : (g.addOp c i).scc = g.scc := rfl
@[simp] theorem Group.addOp_mode (g : Group) (c i : Nat) : (g.addOp c i).mode = g.mode := rfl
@[simp] theorem Group.addOp_fmts (g : Group) (c i : Nat) : (g.addOp c i).fmts = g.fmts := rfl
@[simp] theorem Group.addOp_dphase (g : Group) (c i : Nat) : (g.addOp c i).dphase = g.dphase := rfl
@[simp] theorem Group.addOp_unitPhase (g : Group) (c i : Nat) : (g.addOp c i).unitPhase = g.unitPhase := rfl
@[simp] theorem Group.addOp_chain (g : Group) (c i : Nat) : (g.addOp c i).chain = g.chain := rfl
@[simp] theorem Group.addOp_wdcount (g : Group) (c i : Nat) : (g.addOp c i).wdcount = g.wdcount := rfl
@[simp] theorem Group.addOp_tr (g : Group) (c i : Nat) : (g.addOp c i).tr = g.tr := rfl
@[simp] theorem Group.addOp_xva (g : Group) (c i : Nat) : (g.addOp c i).xva = g.xva := rfl
@[simp] theorem Group.addOp_xdet (g : Group) (c i : Nat) : (g.addOp c i).xdet = g.xdet := rfl
@[simp] theorem Group.addOp_efva (g : Group) (c i : Nat) : (g.addOp c i).efva = g.efva := rfl
@[simp] theorem Group.addOp_efdet (g : Group) (c i : Nat) : (g.addOp c i).efdet = g.efdet := rfl
@[simp] theorem Group.addOp_efsrc (g : Group) (c i : Nat) : (g.addOp c i).efsrc = g.efsrc := rfl
@[simp] theorem Group.addOp_bxdet (g : Group) (c i : Nat) : (g.addOp c i).bxdet = g.bxdet := rfl
@[simp] theorem Group.addOp_bxpc (g : Group) (c i : Nat) : (g.addOp c i).bxpc = g.bxpc := rfl
@[simp] theorem Group.addOp_rwrec (g : Group) (c i : Nat) : (g.addOp c i).rwrec = g.rwrec := rfl
@[simp] theorem Group.addOp_rwpc (g : Group) (c i : Nat) : (g.addOp c i).rwpc = g.rwpc := rfl
@[simp] theorem Group.addOp_clockhi (g : Group) (c i : Nat) : (g.addOp c i).clockhi = g.clockhi := rfl
@[simp] theorem Group.addOp_pmchi (g : Group) (c i : Nat) : (g.addOp c i).pmchi = g.pmchi := rfl
@[simp] theorem Group.addOp_trc (g : Group) (c i : Nat) : (g.addOp c i).trc = g.trc := rfl
@[simp] theorem Group.addOp_part (g : Group) (c i : Nat) : (g.addOp c i).part = g.part := rfl
@[simp] theorem Group.addOp_partOvf (g : Group) (c i : Nat) : (g.addOp c i).partOvf = g.partOvf := rfl
@[simp] theorem Group.addOp_rets (g : Group) (c i : Nat) : (g.addOp c i).rets = g.rets := rfl
@[simp] theorem Group.addOp_atoms (g : Group) (c i : Nat) : (g.addOp c i).atoms = g.atoms := rfl
@[simp] theorem Group.addOp_bounds (g : Group) (c i : Nat) : (g.addOp c i).bounds = g.bounds := rfl
@[simp] theorem Group.addOp_bad (g : Group) (c i : Nat) : (g.addOp c i).bad = g.bad := rfl
@[simp] theorem Group.addOp_late (g : Group) (c i : Nat) : (g.addOp c i).late = g.late := rfl
@[simp] theorem Group.addOp_gbarUse (g : Group) (c i : Nat) : (g.addOp c i).gbarUse = g.gbarUse := rfl
@[simp] theorem Group.addOp_gbarIn (g : Group) (c i : Nat) : (g.addOp c i).gbarIn = g.gbarIn := rfl
@[simp] theorem Group.addOp_mon (g : Group) (c i : Nat) : (g.addOp c i).mon = g.mon := rfl
@[simp] theorem Group.addOp_held (g : Group) (c i : Nat) : (g.addOp c i).held = g.held := rfl
@[simp] theorem Group.addOp_bpSkip (g : Group) (c i : Nat) : (g.addOp c i).bpSkip = g.bpSkip := rfl
@[simp] theorem Group.addOp_inProgress (g : Group) (c i : Nat) : (g.addOp c i).inProgress = g.inProgress := rfl
@[simp] theorem Group.addOp_stepping (g : Group) (c i : Nat) : (g.addOp c i).stepping = g.stepping := rfl
@[simp] theorem Group.addOp_rule (g : Group) (c i : Nat) : (g.addOp c i).rule = g.rule := rfl
@[simp] theorem Group.addOp_replay (g : Group) (c i : Nat) : (g.addOp c i).replay = g.replay := rfl
@[simp] theorem Group.addOp_term (g : Group) (c i : Nat) : (g.addOp c i).term = g.term := rfl
@[simp] theorem Group.addOp_unitRaise (g : Group) (c i : Nat) : (g.addOp c i).unitRaise = g.unitRaise := rfl
@[simp] theorem Group.addOp_forced (g : Group) (c i : Nat) : (g.addOp c i).forced = g.forced := rfl
@[simp] theorem Group.addOp_lastPc (g : Group) (c i : Nat) : (g.addOp c i).lastPc = g.lastPc := rfl
@[simp] theorem Group.addOp_lastWord (g : Group) (c i : Nat) : (g.addOp c i).lastWord = g.lastWord := rfl
@[simp] theorem Group.addOp_lastExec (g : Group) (c i : Nat) : (g.addOp c i).lastExec = g.lastExec := rfl
@[simp] theorem Group.addOp_lastCode (g : Group) (c i : Nat) : (g.addOp c i).lastCode = g.lastCode := rfl
@[simp] theorem Group.addOp_lastGraft (g : Group) (c i : Nat) : (g.addOp c i).lastGraft = g.lastGraft := rfl
@[simp] theorem Group.addOp_stopCause (g : Group) (c i : Nat) : (g.addOp c i).stopCause = g.stopCause := rfl

/-! `Team.setHandle` -/

@[simp] theorem Team.setHandle_live (t : Team) (n : Nat) (h : Handle) : (t.setHandle n h).live = t.live := rfl
@[simp] theorem Team.setHandle_key (t : Team) (n : Nat) (h : Handle) : (t.setHandle n h).key = t.key := rfl
@[simp] theorem Team.setHandle_ctx (t : Team) (n : Nat) (h : Handle) : (t.setHandle n h).ctx = t.ctx := rfl
@[simp] theorem Team.setHandle_unit (t : Team) (n : Nat) (h : Handle) : (t.setHandle n h).unit = t.unit := rfl
@[simp] theorem Team.setHandle_lslot (t : Team) (n : Nat) (h : Handle) : (t.setHandle n h).lslot = t.lslot := rfl
@[simp] theorem Team.setHandle_idx (t : Team) (n : Nat) (h : Handle) : (t.setHandle n h).idx = t.idx := rfl
@[simp] theorem Team.setHandle_size (t : Team) (n : Nat) (h : Handle) : (t.setHandle n h).size = t.size := rfl
@[simp] theorem Team.setHandle_count (t : Team) (n : Nat) (h : Handle) : (t.setHandle n h).count = t.count := rfl
@[simp] theorem Team.setHandle_graph (t : Team) (n : Nat) (h : Handle) : (t.setHandle n h).graph = t.graph := rfl
@[simp] theorem Team.setHandle_phase (t : Team) (n : Nat) (h : Handle) : (t.setHandle n h).phase = t.phase := rfl
@[simp] theorem Team.setHandle_core (t : Team) (n : Nat) (h : Handle) : (t.setHandle n h).core = t.core := rfl
@[simp] theorem Team.setHandle_w (t : Team) (n : Nat) (h : Handle) : (t.setHandle n h).w = t.w := rfl
@[simp] theorem Team.setHandle_pos (t : Team) (n : Nat) (h : Handle) : (t.setHandle n h).pos = t.pos := rfl
@[simp] theorem Team.setHandle_win (t : Team) (n : Nat) (h : Handle) : (t.setHandle n h).win = t.win := rfl
@[simp] theorem Team.setHandle_zeroed (t : Team) (n : Nat) (h : Handle) : (t.setHandle n h).zeroed = t.zeroed := rfl
@[simp] theorem Team.setHandle_loadBack (t : Team) (n : Nat) (h : Handle) : (t.setHandle n h).loadBack = t.loadBack := rfl
@[simp] theorem Team.setHandle_bad (t : Team) (n : Nat) (h : Handle) : (t.setHandle n h).bad = t.bad := rfl
@[simp] theorem Team.setHandle_termmask (t : Team) (n : Nat) (h : Handle) : (t.setHandle n h).termmask = t.termmask := rfl
@[simp] theorem Team.setHandle_termstat (t : Team) (n : Nat) (h : Handle) : (t.setHandle n h).termstat = t.termstat := rfl
@[simp] theorem Team.setHandle_chunk (t : Team) (n : Nat) (h : Handle) : (t.setHandle n h).chunk = t.chunk := rfl

end Sys2Proof.Machine
end

