-- ==== Sys2Proof/Laws/Store.lean ====
section
/-! SUPPORT. Sparse tables and the byte memory: what a read gives after a write, and that every write keeps the canonical
form. -/

namespace Sys2Proof

namespace SMap

variable {α : Type}

theorem get_erase (d : α) (m : SMap α) (k j : Nat) : get d (erase m k) j = if j = k then d else get d m j := by
  induction m with
  | nil => simp [erase, get]
  | cons p t ih =>
    obtain ⟨a, v⟩ := p
    by_cases h : a = k
    · rw [erase, if_pos h, ih]
      by_cases e : j = k
      · simp [e]
      · simp [e, get, h, Ne.symm e]
    · simp only [erase, if_neg h, get, ih]
      by_cases e : j = k
      · simp [e, h]
      · simp [e]

theorem get_insert_self (d : α) (k : Nat) (v : α) (m : SMap α) (h : ∀ p ∈ m, p.1 ≠ k) : get d (insert k v m) k = v := by
  induction m with
  | nil => simp [insert, get]
  | cons p t ih =>
    obtain ⟨a, w⟩ := p
    have ha : a ≠ k := h (a, w) (by simp)
    simp only [insert]
    split
    · simp [get]
    · simp [get, ha, ih fun p hp => h p (List.mem_cons_of_mem _ hp)]

theorem get_insert_ne (d : α) (k j : Nat) (v : α) (m : SMap α) (h : j ≠ k) : get d (insert k v m) j = get d m j := by
  induction m with
  | nil => simp [insert, get, Ne.symm h]
  | cons p t ih =>
    obtain ⟨a, w⟩ := p
    simp only [insert]
    split
    · simp [get, Ne.symm h]
    · simp [get, ih]

theorem erase_keys (m : SMap α) (k : Nat) : ∀ p ∈ erase m k, p.1 ≠ k := by
  induction m with
  | nil => simp [erase]
  | cons p t ih =>
    obtain ⟨a, w⟩ := p
    simp only [erase]
    split
    · exact ih
    · rename_i h
      intro q hq
      rcases List.mem_cons.1 hq with rfl | hq
      · exact h
      · exact ih q hq

/-- A read after a write. -/
theorem get_set [DecidableEq α] (d : α) (m : SMap α) (k j : Nat) (v : α) :
    get d (set d m k v) j = if j = k then v else get d m j := by
  by_cases hj : j = k
  · subst hj
    by_cases hv : v = d
    · simp [set, hv, get_erase]
    · simp [set, hv, get_insert_self d j v _ (erase_keys m j)]
  · by_cases hv : v = d
    · simp [set, hv, get_erase, hj]
    · simp [set, hv, get_insert_ne d k j v _ hj, get_erase, hj]

@[simp] theorem get_set_self [DecidableEq α] (d : α) (m : SMap α) (k : Nat) (v : α) : get d (set d m k v) k = v := by
  simp [get_set]

theorem get_set_ne [DecidableEq α] (d : α) (m : SMap α) (k j : Nat) (v : α) (h : j ≠ k) :
    get d (set d m k v) j = get d m j := by
  simp [get_set, h]

/-- The keys lie above a number. -/
def above (n : Nat) (m : SMap α) : Prop := ∀ p ∈ m, n < p.1

theorem sorted_cons {k : Nat} {v : α} {m : SMap α} : sorted ((k, v) :: m) = true ↔ above k m ∧ sorted m = true := by
  induction m generalizing k v with
  | nil => simp [sorted, above]
  | cons p t ih =>
    obtain ⟨a, w⟩ := p
    simp only [sorted, Bool.and_eq_true, decide_eq_true_eq]
    constructor
    · rintro ⟨h1, h2⟩
      refine ⟨?_, h2⟩
      intro q hq
      rcases List.mem_cons.1 hq with rfl | hq
      · exact h1
      · exact Nat.lt_trans h1 ((ih.1 h2).1 q hq)
    · rintro ⟨h1, h2⟩
      exact ⟨h1 (a, w) (by simp), h2⟩

theorem mem_erase {m : SMap α} {k : Nat} {p : Nat × α} (h : p ∈ erase m k) : p ∈ m := by
  induction m with
  | nil => simp [erase] at h
  | cons q t ih =>
    obtain ⟨a, w⟩ := q
    simp only [erase] at h
    split at h
    · exact List.mem_cons_of_mem _ (ih h)
    · rcases List.mem_cons.1 h with rfl | h
      · simp
      · exact List.mem_cons_of_mem _ (ih h)

theorem mem_insert {m : SMap α} {k : Nat} {v : α} {p : Nat × α} (h : p ∈ insert k v m) : p = (k, v) ∨ p ∈ m := by
  induction m with
  | nil => simpa [insert] using h
  | cons q t ih =>
    obtain ⟨a, w⟩ := q
    simp only [insert] at h
    split at h
    · rcases List.mem_cons.1 h with rfl | h
      · exact .inl rfl
      · exact .inr h
    · rcases List.mem_cons.1 h with rfl | h
      · exact .inr (by simp)
      · rcases ih h with e | e
        · exact .inl e
        · exact .inr (List.mem_cons_of_mem _ e)

theorem sorted_erase {m : SMap α} {k : Nat} (h : sorted m = true) : sorted (erase m k) = true := by
  induction m with
  | nil => simp [erase, sorted]
  | cons q t ih =>
    obtain ⟨a, w⟩ := q
    rw [sorted_cons] at h
    simp only [erase]
    split
    · exact ih h.2
    · exact sorted_cons.2 ⟨fun p hp => h.1 p (mem_erase hp), ih h.2⟩

theorem sorted_insert {m : SMap α} {k : Nat} {v : α} (h : sorted m = true) (hk : ∀ p ∈ m, p.1 ≠ k) :
    sorted (insert k v m) = true := by
  induction m with
  | nil => simp [insert, sorted]
  | cons q t ih =>
    obtain ⟨a, w⟩ := q
    have ha : a ≠ k := hk (a, w) (by simp)
    have ht := sorted_cons.1 h
    simp only [insert]
    split
    · rename_i hlt
      exact sorted_cons.2 ⟨fun p hp => by
        rcases List.mem_cons.1 hp with rfl | hp
        · exact hlt
        · exact Nat.lt_trans hlt (ht.1 p hp), h⟩
    · rename_i hge
      refine sorted_cons.2 ⟨fun p hp => ?_, ih ht.2 fun p hp => hk p (List.mem_cons_of_mem _ hp)⟩
      rcases mem_insert hp with rfl | hp
      · show a < k
        omega
      · exact ht.1 p hp

/-- A write keeps the keys rising. -/
theorem sorted_set [DecidableEq α] {d : α} {m : SMap α} {k : Nat} {v : α} (h : sorted m = true) :
    sorted (set d m k v) = true := by
  by_cases hv : v = d
  · simpa [set, hv] using sorted_erase h
  · simpa [set, hv] using sorted_insert (sorted_erase h) (erase_keys m k)

theorem mem_set [DecidableEq α] {d : α} {m : SMap α} {k : Nat} {v : α} {p : Nat × α} (h : p ∈ set d m k v) :
    (p = (k, v) ∧ v ≠ d) ∨ p ∈ m := by
  by_cases hv : v = d
  · simp only [set, hv, if_true] at h
    exact .inr (mem_erase h)
  · simp only [set, hv, if_false] at h
    rcases mem_insert h with e | e
    · exact .inl ⟨e, hv⟩
    · exact .inr (mem_erase e)

end SMap

namespace Machine

/-! ### The byte memory -/

/-- A byte read after a byte was written. -/
theorem readByte_writeByte (m : List Host.Cell) (a b : Nat) (v : Byte) :
    readByte (writeByte m a v) b = if b = a then v else readByte m b := by
  by_cases h : b = a
  · subst h; simp [readByte, writeByte]
  · unfold readByte writeByte
    by_cases hv : v = memDefault a
    · simp [SMap.set, hv, SMap.get_erase, h]
    · simp [SMap.set, hv, SMap.get_insert_ne _ _ _ _ _ h, SMap.get_erase, h]

/-- A byte outside what was written reads as before. -/
theorem readByte_writeBytes_outside (m : List Host.Cell) (a : Nat) (l : List Byte) (b : Nat)
    (h : b < a ∨ a + l.length ≤ b) : readByte (writeBytes m a l) b = readByte m b := by
  induction l generalizing m a with
  | nil => rfl
  | cons x t ih =>
    simp only [List.length_cons] at h
    rw [writeBytes, ih _ _ (by omega), readByte_writeByte, if_neg (by omega)]

/-- A byte written reads as written. -/
theorem readByte_writeBytes_inside (m : List Host.Cell) (a : Nat) (l : List Byte) (k : Nat) (h : k < l.length) :
    readByte (writeBytes m a l) (a + k) = l[k] := by
  induction l generalizing m a k with
  | nil => simp at h
  | cons x t ih =>
    cases k with
    | zero => rw [writeBytes, readByte_writeBytes_outside _ _ _ _ (by omega), readByte_writeByte]; simp
    | succ k =>
      have := ih (writeByte m a x) (a + 1) k (by simpa using h)
      rw [writeBytes, show a + (k + 1) = a + 1 + k by omega, this]
      simp

/-- The canonical form, said of its entries. -/
theorem memWf_iff (m : List Host.Cell) : memWf m = true ↔ SMap.sorted m = true ∧ ∀ c ∈ m, c.2 ≠ memDefault c.1 := by
  simp [memWf]

/-- Writing a byte keeps the canonical form. -/
theorem memWf_writeByte {m : List Host.Cell} (h : memWf m = true) (a : Nat) (v : Byte) : memWf (writeByte m a v) = true := by
  rw [memWf_iff] at h ⊢
  refine ⟨SMap.sorted_set h.1, fun c hc => ?_⟩
  rcases SMap.mem_set hc with ⟨rfl, e⟩ | e
  · exact e
  · exact h.2 c e

/-- Writing bytes keeps the canonical form. -/
theorem memWf_writeBytes {m : List Host.Cell} (h : memWf m = true) (a : Nat) (l : List Byte) :
    memWf (writeBytes m a l) = true := by
  induction l generalizing m a with
  | nil => exact h
  | cons x t ih => exact ih (memWf_writeByte h a x) (a + 1)

/-- Writing a number keeps the canonical form. -/
theorem memWf_writeNat {m : List Host.Cell} (h : memWf m = true) (a n x : Nat) : memWf (writeNat m a n x) = true :=
  memWf_writeBytes h a _

/-- The memory of a machine that nothing has written is canonical. -/
theorem memWf_nil : memWf [] = true := rfl

@[simp] theorem bytesOfNat_length (n x : Nat) : (bytesOfNat n x).length = n := by
  induction n generalizing x with
  | zero => rfl
  | succ n ih => simp [bytesOfNat, ih]

/-! ### Windows -/

/-- A byte of a window read after a byte was written. -/
theorem winByte_set (w : SMap Byte) (a b : Nat) (v : Byte) : winByte (SMap.set 0 w a v) b = if b = a then v else winByte w b :=
  SMap.get_set 0 w a b v

/-- A byte of a window outside what was written. -/
theorem winByte_winWrite_outside (w : SMap Byte) (a : Nat) (l : List Byte) (b : Nat) (h : b < a ∨ a + l.length ≤ b) :
    winByte (winWrite w a l) b = winByte w b := by
  induction l generalizing w a with
  | nil => rfl
  | cons x t ih =>
    simp only [List.length_cons] at h
    rw [winWrite, ih _ _ (by omega), winByte_set, if_neg (by omega)]

/-- A byte of a window that was written. -/
theorem winByte_winWrite_inside (w : SMap Byte) (a : Nat) (l : List Byte) (k : Nat) (h : k < l.length) :
    winByte (winWrite w a l) (a + k) = l[k] := by
  induction l generalizing w a k with
  | nil => simp at h
  | cons x t ih =>
    cases k with
    | zero => rw [winWrite, winByte_winWrite_outside _ _ _ _ (by omega), winByte_set]; simp
    | succ k =>
      have := ih (SMap.set 0 w a x) (a + 1) k (by simpa using h)
      rw [winWrite, show a + (k + 1) = a + 1 + k by omega, this]
      simp

end Machine
end Sys2Proof
end

