-- ==== Sys2Proof/Laws/Ops.lean ====
section
/-! SUPPORT. What the shared operations do: checks that pass, issue, retirement, waits, and the frames of register writes. -/

namespace Sys2Proof.Machine

/-! ### Checks -/

@[simp] theorem firstCheck_nil : firstCheck [] = .ok := rfl
@[simp] theorem firstCheck_ok (l : List Check) : firstCheck (.ok :: l) = firstCheck l := rfl
theorem firstCheck_eq_ok {l : List Check} : firstCheck l = .ok ↔ ∀ c ∈ l, c = .ok := by
  induction l with
  | nil => simp
  | cons c t ih => cases c <;> simp [firstCheck, ih]

@[simp] theorem raiseIf_ok {b : Bool} {r : Raise} : raiseIf b r = .ok ↔ b = false := by cases b <;> simp [raiseIf]
@[simp] theorem waitIf_ok {b : Bool} {y : Reason} {w : Wait} : waitIf b y w = .ok ↔ b = false := by cases b <;> simp [waitIf]

/-- An operand whose registers are all allocated and full. -/
def Opd.fine (g : Group) (o : Opd) : Prop := o.held g = true ∧ o.empty g = false

theorem allocCheck_ok {g : Group} {l : List Opd} (h : ∀ o ∈ l, o.held g = true) : allocCheck g l = .ok := by
  induction l with
  | nil => rfl
  | cons o t ih => simp [allocCheck, h o (by simp), ih fun o ho => h o (List.mem_cons_of_mem _ ho)]

theorem emptyCheck_ok {g : Group} {l : List Opd} (h : ∀ o ∈ l, o.empty g = false) : emptyCheck g l = .ok := by
  induction l with
  | nil => rfl
  | cons o t ih => simp [emptyCheck, h o (by simp), ih fun o ho => h o (List.mem_cons_of_mem _ ho)]

theorem destCheck_ok {g : Group} {l : List Opd} (h : ∀ o ∈ l, o.empty g = false) : destCheck g l = .ok := by
  induction l with
  | nil => rfl
  | cons o t ih => simp [destCheck, h o (by simp), ih fun o ho => h o (List.mem_cons_of_mem _ ho)]

/-- No word that an operand reads holds an uncorrectable error. -/
def Opd.sound (g : Group) (o : Opd) : Prop := ∀ w ∈ o.words g, w ∉ g.bad

theorem eccCheck_ok {g : Group} {l : List Opd} (h : ∀ o ∈ l, o.sound g) : eccCheck g l = .ok := by
  have : (l.any fun o => (o.words g).any g.bad.contains) = false := by
    simp only [List.any_eq_false, List.contains_eq_mem, decide_eq_true_eq]
    intro o ho hx
    obtain ⟨w, hw, hb⟩ := List.any_eq_true.1 hx
    exact h o ho w hw (by simpa using hb)
  simp [eccCheck, this]

/-- Operands that are allocated and full pass, their sources sound. -/
theorem operandCheck_ok {g : Group} {srcs dsts : List Opd} {own : Check} (h : ∀ o ∈ srcs ++ dsts, o.fine g)
    (hs : ∀ o ∈ srcs, o.sound g) (ho : own = .ok) : operandCheck g srcs dsts own = .ok := by
  have h1 : allocCheck g (srcs ++ dsts) = .ok := allocCheck_ok fun o hx => (h o hx).1
  have h2 : emptyCheck g srcs = .ok := emptyCheck_ok fun o hx => (h o (List.mem_append_left _ hx)).2
  have h3 : destCheck g dsts = .ok := destCheck_ok fun o hx => (h o (List.mem_append_right _ hx)).2
  simp [operandCheck, h1, h2, h3, ho, eccCheck_ok hs]

theorem mem_rangeFrom {a n r : Nat} : r ∈ rangeFrom a n ↔ ∃ k, k < n ∧ a + k = r := by simp [rangeFrom]

/-- Registers of one file that are allocated and full. -/
theorem Opd.fine_of {g : Group} {sc : Bool} {n cnt : Nat} {e : Bool} {code : Nat}
    (h : ∀ k, k < cnt → if sc then g.fullS (n + k) else g.fullV (n + k)) :
    ({ scalar := sc, n := n, cnt := cnt, trap := e, code := code } : Opd).fine g := by
  constructor
  · simp only [Opd.held, Opd.regs, List.all_eq_true, mem_rangeFrom]
    rintro r ⟨k, hk, rfl⟩
    have := h k hk
    cases sc
    · simpa [Group.holdsV] using this.1
    · simpa [Group.holdsS] using this.1
  · simp only [Opd.empty, Opd.regs, List.any_eq_false, mem_rangeFrom]
    rintro r ⟨k, hk, rfl⟩
    have := h k hk
    cases sc
    · simpa using this.2
    · simpa using this.2

/-- Registers of one file whose words hold no uncorrectable error. -/
theorem Opd.sound_of {g : Group} {sc : Bool} {n cnt : Nat} {e : Bool} {code : Nat}
    (h : ∀ k, k < cnt → if sc then g.soundS (n + k) else g.soundV (n + k)) :
    ({ scalar := sc, n := n, cnt := cnt, trap := e, code := code } : Opd).sound g := by
  intro w hw
  cases sc
  · simp only [Opd.words, Opd.regs, Bool.false_eq_true, if_false, List.mem_flatMap, mem_rangeFrom, List.mem_map, lanesOf,
      List.mem_filter, List.mem_range] at hw
    obtain ⟨r, ⟨k, hk, rfl⟩, l, ⟨hl, ha⟩, rfl⟩ := hw
    exact h k hk l hl ha
  · simp only [Opd.words, Opd.regs, if_true, List.mem_map, mem_rangeFrom] at hw
    obtain ⟨r, ⟨k, hk, rfl⟩, rfl⟩ := hw
    exact h k hk

theorem sOpd_fine {g : Group} {c : BitVec 7} {code n : Nat} {e : Bool} (h : g.openS c n) : (sOpd c code e n).fine g :=
  Opd.fine_of h

theorem sOpd_sound {g : Group} {c : BitVec 7} {code n : Nat} {e : Bool} (h : g.readyS c n) : (sOpd c code e n).sound g :=
  Opd.sound_of h.2

theorem vOpd_fine {g : Group} {c : BitVec 7} {code n : Nat} {e : Bool} (h : g.openX c n) : (vOpd c code e n).fine g := by
  unfold vOpd
  split
  · rename_i hc
    exact Opd.fine_of fun k hk => by simpa [hc] using h k hk
  · rename_i hc
    exact Opd.fine_of fun k hk => by simpa [hc] using h k hk

theorem vOpd_sound {g : Group} {c : BitVec 7} {code n : Nat} {e : Bool} (h : g.readyX c n) : (vOpd c code e n).sound g := by
  unfold vOpd
  split
  · rename_i hc
    exact Opd.sound_of fun k hk => by simpa [hc] using h.2 k hk
  · rename_i hc
    exact Opd.sound_of fun k hk => by simpa [hc] using h.2 k hk

/-! ### Issue -/

/-- An instruction whose checks pass has its effect and retires. -/
theorem issueTo_ok {s : State} {c : Check} {npc : DWord} {eff : State → State} (h : c = .ok) :
    s.issueTo c npc eff = .next ((eff s).clearFab.retire npc) := by simp [State.issueTo, h]

/-- An instruction of one word whose checks pass. -/
theorem issue_ok {s : State} {c : Check} {eff : State → State} (h : c = .ok) :
    s.issue c eff = .next ((eff s).clearFab.retire (s.g.pc + 4)) := issueTo_ok h

/-- Nothing that issues is refused or stops the machine. -/
theorem issueTo_next (s : State) (c : Check) (npc : DWord) (eff : State → State) :
    ∃ t, s.issueTo c npc eff = .next t := by unfold State.issueTo; split <;> exact ⟨_, rfl⟩

/-! ### Retirement -/

@[simp] theorem replayStep_mem (s : State) : s.replayStep.mem = s.mem := by unfold State.replayStep; split <;> (try split) <;> rfl
@[simp] theorem replayStep_tm (s : State) : s.replayStep.tm = s.tm := by unfold State.replayStep; split <;> (try split) <;> rfl
@[simp] theorem replayStep_arrays (s : State) : s.replayStep.arrays = s.arrays := by
  unfold State.replayStep; split <;> (try split) <;> rfl

@[simp] theorem replayStep_others (s : State) : s.replayStep.others = s.others := by
  unfold State.replayStep; split <;> (try split) <;> rfl
/-- Outside a replay nothing ends. -/
theorem replayStep_idle {s : State} (h : s.g.replay = []) : s.replayStep = s := by simp [State.replayStep, h]
@[simp] theorem retire_sysregs (s : State) (npc : DWord) : (s.retire npc).cx.sysregs = s.cx.sysregs := by
  simp only [State.retire]; unfold State.replayStep; split <;> (try split) <;> rfl
@[simp] theorem clearFab_others (s : State) : s.clearFab.others = s.others := rfl
@[simp] theorem clearFab_cx (s : State) : s.clearFab.cx = s.cx := rfl

/-- The only fields of a group that the end of a replay changes. -/
theorem replayStep_g (s : State) :
    s.replayStep.g = { s.g with replay := s.replayStep.g.replay, rwrec := s.replayStep.g.rwrec } := by
  unfold State.replayStep; split <;> (try split) <;> rfl

@[simp] theorem retire_pc (s : State) (npc : DWord) : (s.retire npc).g.pc = npc := rfl
@[simp] theorem retire_mem (s : State) (npc : DWord) : (s.retire npc).mem = s.mem := by simp [State.retire]
@[simp] theorem retire_tm (s : State) (npc : DWord) : (s.retire npc).tm = s.tm := by simp [State.retire]
@[simp] theorem retire_arrays (s : State) (npc : DWord) : (s.retire npc).arrays = s.arrays := by simp [State.retire]

/-- What a retirement changes of the group. -/
theorem retire_g (s : State) (npc : DWord) :
    (s.retire npc).g =
      { s.g with
        replay := s.replayStep.g.replay, rwrec := s.replayStep.g.rwrec
        pc := npc, lastPc := s.g.pc, lastCode := 0, wdcount := s.g.wdcount + 1
        st := if s.g.st = .ended ∨ s.g.st = .stopped then s.g.st else .issuing
        reason := .none, wait := .none, bpSkip := false } := by
  simp only [State.retire]
  rw [replayStep_g]

@[simp] theorem clearFab_g (s : State) : s.clearFab.g = s.g := rfl
@[simp] theorem clearFab_mem (s : State) : s.clearFab.mem = s.mem := rfl
@[simp] theorem clearFab_tm (s : State) : s.clearFab.tm = s.tm := rfl
@[simp] theorem clearFab_arrays (s : State) : s.clearFab.arrays = s.arrays := rfl

/-- A retirement writes no place that a frame speaks of. -/
theorem Keeps.retire {w : Writes} {s t : State} (h : Keeps w s t) (npc : DWord) : Keeps w s (t.clearFab.retire npc) := by
  have e := retire_g t.clearFab npc
  constructor <;>
    first
    | (intro n hn; simpa [e, Group.sreg, Group.isEmptyS] using h.sregs n hn)
    | (intro r hr; simpa [e, Group.lane, Group.tag, Group.isEmptyV] using h.vregs r hr)
    | (intro k hk; simpa [e, Group.fmt] using h.fmts k hk)
    | (intro hb; simpa [e] using h.scc hb)
    | (intro hb; simpa [e] using h.cmask hb)
    | (intro hb; simpa [e] using h.exec hb)
    | (intro hb; simpa [e] using h.savedexec hb)
    | (intro hb; simpa [e] using h.mode hb)
    | (intro hb; simpa [e] using h.dphase hb)
    | (intro hb; simpa [e] using h.chain hb)
    | (intro hb; simpa [e] using h.trap hb)
    | (intro hb; simpa [e] using h.detail hb)
    | (intro a ha; simpa using h.mem a ha)
    | (intro o ho; simpa using h.win o ho)
    | (intro hb; simpa using h.handles hb)
    | (intro hb; simpa [State.bank, State.array] using h.banks hb)
    | (intro hb; simpa [e] using h.latch hb)
    | (intro hb; simpa [e, Group.count, Group.ops] using h.counters hb)
    | (intro hb; simpa [e, replayStep_idle (s := t.clearFab) (h.rewrite hb).2.2] using h.rewrite hb)
    | (intro hb; simpa using h.context hb)
    | (intro hb; simpa [State.retire, Function.comp_def] using h.others hb)

/-- What has issued, seen from the state of the effect. -/
theorem issued_retire {s t : State} (npc : DWord) (h1 : t.g.wdcount = s.g.wdcount) (h2 : t.g.st = s.g.st) :
    Issued s (t.clearFab.retire npc) npc := by
  constructor
  · rfl
  · simp [retire_g, h1]
  · intro h k; simp [retire_g, h2, h, k]

/-- The completion of an instruction, from its effect. -/
theorem completes_of {i : Instr} {s : State} {npc : DWord} {w : Writes} {P : State → Prop} {t : State}
    (h : exec i s = .next (t.clearFab.retire npc)) (h1 : t.g.wdcount = s.g.wdcount) (h2 : t.g.st = s.g.st)
    (hk : Keeps w s t) (hp : P (t.clearFab.retire npc)) : Completes i s npc w P :=
  ⟨_, h, issued_retire npc h1 h2, hk.retire npc, hp⟩

/-! ### Frames -/

/-- Nothing changed. -/
theorem Keeps.refl (w : Writes) (s : State) : Keeps w s s := by
  constructor <;> simp

/-- Frames of one set of writes compose. -/
theorem Keeps.trans {w : Writes} {s t u : State} (h : Keeps w s t) (k : Keeps w t u) : Keeps w s u := by
  constructor
  · intro n hn; exact ⟨(k.sregs n hn).1.trans (h.sregs n hn).1, (k.sregs n hn).2.trans (h.sregs n hn).2⟩
  · intro r hr
    exact ⟨fun l hl => ((k.vregs r hr).1 l hl).trans ((h.vregs r hr).1 l hl), (k.vregs r hr).2.1.trans (h.vregs r hr).2.1,
      (k.vregs r hr).2.2.trans (h.vregs r hr).2.2⟩
  · intro n hn; exact (k.fmts n hn).trans (h.fmts n hn)
  · intro b; exact (k.scc b).trans (h.scc b)
  · intro b; exact (k.cmask b).trans (h.cmask b)
  · intro b; exact (k.exec b).trans (h.exec b)
  · intro b; exact (k.savedexec b).trans (h.savedexec b)
  · intro b; exact (k.mode b).trans (h.mode b)
  · intro b; exact (k.dphase b).trans (h.dphase b)
  · intro b; exact (k.chain b).trans (h.chain b)
  · intro b; exact (k.trap b).trans (h.trap b)
  · intro b
    obtain ⟨a1, a2, a3, a4, a5, a6, a7⟩ := h.detail b
    obtain ⟨b1, b2, b3, b4, b5, b6, b7⟩ := k.detail b
    exact ⟨b1.trans a1, b2.trans a2, b3.trans a3, b4.trans a4, b5.trans a5, b6.trans a6, b7.trans a7⟩
  · intro a ha; exact (k.mem a ha).trans (h.mem a ha)
  · intro o ho; exact (k.win o ho).trans (h.win o ho)
  · intro b n hn; exact (k.handles b n hn).trans (h.handles b n hn)
  · intro b a n; exact (k.banks b a n).trans (h.banks b a n)
  · intro b; exact ⟨(k.latch b).1.trans (h.latch b).1, (k.latch b).2.trans (h.latch b).2⟩
  · intro b c; exact (k.counters b c).trans (h.counters b c)
  · intro b
    obtain ⟨a1, a2, a3⟩ := h.rewrite b
    obtain ⟨b1, b2, b3⟩ := k.rewrite a3
    exact ⟨b1.trans a1, b2.trans a2, b3⟩
  · intro b; exact (k.context b).trans (h.context b)
  · intro b; exact (k.others b).trans (h.others b)

/-- A scalar register written. -/
theorem Keeps.setS {w : Writes} {s : State} {d : Nat} (x : Word) (hd : d ∈ w.sregs) :
    Keeps w s (s.modG fun g => g.setS d x) := by
  constructor <;> try (intros; simp_all [State.modG, Group.setS, Group.sreg, Group.isEmptyS, Group.lane, Group.tag, Group.isEmptyV, Group.fmt, State.bank, State.array, Group.count, Group.ops])
  rename_i n hn
  exact SMap.get_set_ne _ _ _ _ _ (by rintro rfl; exact hn hd)

/-- SCC written. -/
theorem Keeps.setScc {w : Writes} {s : State} (b : Bool) (h : w.scc = true) : Keeps w s (s.modG (·.setScc b)) := by
  constructor <;> (intros; simp_all [State.modG, Group.setScc, Group.sreg, Group.isEmptyS, Group.lane, Group.tag, Group.isEmptyV, Group.fmt, State.bank, State.array, Group.count, Group.ops])

end Sys2Proof.Machine
end

