-- ==== Sys2Proof/Laws/PerInstr.lean ====
section
/-! SUPPORT. One lemma per constructor of `Instr`: the opcode an instruction encodes to has the format its fields are laid
out in (R124, R128), or the step has no encoding (R129). -/

namespace Sys2Proof.Laws.Encoding

/-- A body is laid out by a format; RL has the layout of RRR (R124). -/
def fits (b : Body) (f : Fmt) : Bool :=
  match b, f with
  | .RRR .., .rrr => true
  | .RRR .., .rl => true
  | .RI .., .ri => true
  | .X .., .x => true
  | .B .., .b => true
  | .M .., .m => true
  | .A .., .a => true
  | .S .., .s => true
  | .T .., .t => true
  | _, _ => false

/-- The format of an encodable instruction's opcode is the one its fields are laid out in. -/
def Statement (i : Instr) : Prop :=
  match i.fields with
  | some (op, b, _) => ∃ f, formatOf op = some f ∧ fits b f = true
  | none => True

theorem nop : Statement (.nop) := ⟨_, rfl, rfl⟩
theorem sadd (d : BitVec 7) (a : BitVec 7) (b : BitVec 7) (ea : Bool) (eb : Bool) : Statement (.sadd d a b ea eb) := ⟨_, rfl, rfl⟩
theorem saddi (d : BitVec 7) (a : BitVec 7) (imm : BitVec 9) (ea : Bool) : Statement (.saddi d a imm ea) := ⟨_, rfl, rfl⟩
theorem ssub (d : BitVec 7) (a : BitVec 7) (b : BitVec 7) (ea : Bool) (eb : Bool) : Statement (.ssub d a b ea eb) := ⟨_, rfl, rfl⟩
theorem smul (d : BitVec 7) (a : BitVec 7) (b : BitVec 7) (ea : Bool) (eb : Bool) : Statement (.smul d a b ea eb) := ⟨_, rfl, rfl⟩
theorem smulhI (d : BitVec 7) (a : BitVec 7) (b : BitVec 7) (ea : Bool) (eb : Bool) : Statement (.smulhI d a b ea eb) := ⟨_, rfl, rfl⟩
theorem smulhN (d : BitVec 7) (a : BitVec 7) (b : BitVec 7) (ea : Bool) (eb : Bool) : Statement (.smulhN d a b ea eb) := ⟨_, rfl, rfl⟩
theorem sand (d : BitVec 7) (a : BitVec 7) (b : BitVec 7) (ea : Bool) (eb : Bool) : Statement (.sand d a b ea eb) := ⟨_, rfl, rfl⟩
theorem sor (d : BitVec 7) (a : BitVec 7) (b : BitVec 7) (ea : Bool) (eb : Bool) : Statement (.sor d a b ea eb) := ⟨_, rfl, rfl⟩
theorem sxor (d : BitVec 7) (a : BitVec 7) (b : BitVec 7) (ea : Bool) (eb : Bool) : Statement (.sxor d a b ea eb) := ⟨_, rfl, rfl⟩
theorem sandn (d : BitVec 7) (a : BitVec 7) (b : BitVec 7) (ea : Bool) (eb : Bool) : Statement (.sandn d a b ea eb) := ⟨_, rfl, rfl⟩
theorem sshl (d : BitVec 7) (a : BitVec 7) (b : BitVec 7) (ea : Bool) (eb : Bool) : Statement (.sshl d a b ea eb) := ⟨_, rfl, rfl⟩
theorem sshr (d : BitVec 7) (a : BitVec 7) (b : BitVec 7) (ea : Bool) (eb : Bool) : Statement (.sshr d a b ea eb) := ⟨_, rfl, rfl⟩
theorem ssra (d : BitVec 7) (a : BitVec 7) (b : BitVec 7) (ea : Bool) (eb : Bool) : Statement (.ssra d a b ea eb) := ⟨_, rfl, rfl⟩
theorem sshiShl (d : BitVec 7) (a : BitVec 7) (n : BitVec 5) (ea : Bool) : Statement (.sshiShl d a n ea) := ⟨_, rfl, rfl⟩
theorem sshiShr (d : BitVec 7) (a : BitVec 7) (n : BitVec 5) (ea : Bool) : Statement (.sshiShr d a n ea) := ⟨_, rfl, rfl⟩
theorem sshiSra (d : BitVec 7) (a : BitVec 7) (n : BitVec 5) (ea : Bool) : Statement (.sshiSra d a n ea) := ⟨_, rfl, rfl⟩
theorem sshiRor (d : BitVec 7) (a : BitVec 7) (n : BitVec 5) (ea : Bool) : Statement (.sshiRor d a n ea) := ⟨_, rfl, rfl⟩
theorem sminI (d : BitVec 7) (a : BitVec 7) (b : BitVec 7) (ea : Bool) (eb : Bool) : Statement (.sminI d a b ea eb) := ⟨_, rfl, rfl⟩
theorem smaxI (d : BitVec 7) (a : BitVec 7) (b : BitVec 7) (ea : Bool) (eb : Bool) : Statement (.smaxI d a b ea eb) := ⟨_, rfl, rfl⟩
theorem sminN (d : BitVec 7) (a : BitVec 7) (b : BitVec 7) (ea : Bool) (eb : Bool) : Statement (.sminN d a b ea eb) := ⟨_, rfl, rfl⟩
theorem smaxN (d : BitVec 7) (a : BitVec 7) (b : BitVec 7) (ea : Bool) (eb : Bool) : Statement (.smaxN d a b ea eb) := ⟨_, rfl, rfl⟩
theorem scmpeq (d : BitVec 7) (a : BitVec 7) (b : BitVec 7) (ea : Bool) (eb : Bool) : Statement (.scmpeq d a b ea eb) := ⟨_, rfl, rfl⟩
theorem scmpne (d : BitVec 7) (a : BitVec 7) (b : BitVec 7) (ea : Bool) (eb : Bool) : Statement (.scmpne d a b ea eb) := ⟨_, rfl, rfl⟩
theorem scmpltI (d : BitVec 7) (a : BitVec 7) (b : BitVec 7) (ea : Bool) (eb : Bool) : Statement (.scmpltI d a b ea eb) := ⟨_, rfl, rfl⟩
theorem scmpleI (d : BitVec 7) (a : BitVec 7) (b : BitVec 7) (ea : Bool) (eb : Bool) : Statement (.scmpleI d a b ea eb) := ⟨_, rfl, rfl⟩
theorem scmpltN (d : BitVec 7) (a : BitVec 7) (b : BitVec 7) (ea : Bool) (eb : Bool) : Statement (.scmpltN d a b ea eb) := ⟨_, rfl, rfl⟩
theorem scmpleN (d : BitVec 7) (a : BitVec 7) (b : BitVec 7) (ea : Bool) (eb : Bool) : Statement (.scmpleN d a b ea eb) := ⟨_, rfl, rfl⟩
theorem ssel (d : BitVec 7) (a : BitVec 7) (b : BitVec 7) (ea : Bool) (eb : Bool) : Statement (.ssel d a b ea eb) := ⟨_, rfl, rfl⟩
theorem sli (d : BitVec 7) (lit : BitVec 32) : Statement (.sli d lit) := ⟨_, rfl, rfl⟩
theorem smovi (d : BitVec 7) (imm : BitVec 9) : Statement (.smovi d imm) := ⟨_, rfl, rfl⟩
theorem smov (d : BitVec 7) (a : BitVec 7) (ea : Bool) : Statement (.smov d a ea) := ⟨_, rfl, rfl⟩
theorem spopc (d : BitVec 7) (a : BitVec 7) (ea : Bool) : Statement (.spopc d a ea) := ⟨_, rfl, rfl⟩
theorem sclz (d : BitVec 7) (a : BitVec 7) (ea : Bool) : Statement (.sclz d a ea) := ⟨_, rfl, rfl⟩
theorem bra (off : BitVec 24) : Statement (.bra off) := ⟨_, rfl, rfl⟩
theorem brs (off : BitVec 24) : Statement (.brs off) := ⟨_, rfl, rfl⟩
theorem brns (off : BitVec 24) : Statement (.brns off) := ⟨_, rfl, rfl⟩
theorem brany (off : BitVec 24) : Statement (.brany off) := ⟨_, rfl, rfl⟩
theorem brall (off : BitVec 24) : Statement (.brall off) := ⟨_, rfl, rfl⟩
theorem brnone (off : BitVec 24) : Statement (.brnone off) := ⟨_, rfl, rfl⟩
theorem call (off : BitVec 24) : Statement (.call off) := ⟨_, rfl, rfl⟩
theorem jr (a : BitVec 7) (ea : Bool) : Statement (.jr a ea) := ⟨_, rfl, rfl⟩
theorem yield : Statement (.yield) := ⟨_, rfl, rfl⟩
theorem exit : Statement (.exit) := ⟨_, rfl, rfl⟩
theorem trap (k : BitVec 12) : Statement (.trap k) := ⟨_, rfl, rfl⟩
theorem rett : Statement (.rett) := ⟨_, rfl, rfl⟩
theorem bkpt (k : BitVec 12) : Statement (.bkpt k) := ⟨_, rfl, rfl⟩
theorem mexec (a : BitVec 7) (ea : Bool) : Statement (.mexec a ea) := ⟨_, rfl, rfl⟩
theorem mrdexec (d : BitVec 7) : Statement (.mrdexec d) := ⟨_, rfl, rfl⟩
theorem mrdcm (d : BitVec 7) : Statement (.mrdcm d) := ⟨_, rfl, rfl⟩
theorem mwrcm (a : BitVec 7) (ea : Bool) : Statement (.mwrcm a ea) := ⟨_, rfl, rfl⟩
theorem mand : Statement (.mand) := ⟨_, rfl, rfl⟩
theorem melse : Statement (.melse) := ⟨_, rfl, rfl⟩
theorem setmode (a : BitVec 7) (ea : Bool) : Statement (.setmode a ea) := ⟨_, rfl, rfl⟩
theorem setmodeMsk (d : BitVec 7) (a : BitVec 7) (ea : Bool) (ed : Bool) : Statement (.setmodeMsk d a ea ed) := ⟨_, rfl, rfl⟩
theorem getmode (d : BitVec 7) : Statement (.getmode d) := ⟨_, rfl, rfl⟩
theorem setfmt (a : BitVec 7) (k : BitVec 4) (ea : Bool) : Statement (.setfmt a k ea) := ⟨_, rfl, rfl⟩
theorem getfmt (d : BitVec 7) (k : BitVec 4) : Statement (.getfmt d k) := ⟨_, rfl, rfl⟩
theorem rdsr (p : BitVec 7) (k : BitVec 12) : Statement (.rdsr p k) := ⟨_, rfl, rfl⟩
theorem wrsr (p : BitVec 7) (k : BitVec 12) : Statement (.wrsr p k) := ⟨_, rfl, rfl⟩
theorem cancel (p : BitVec 7) (m : BitVec 5) : Statement (.cancel p m) := ⟨_, rfl, rfl⟩
theorem tspawn (d : BitVec 7) (a : BitVec 7) (ea : Bool) : Statement (.tspawn d a ea) := ⟨_, rfl, rfl⟩
theorem mcount (d : BitVec 7) : Statement (.mcount d) := ⟨_, rfl, rfl⟩
theorem vadd (d : BitVec 7) (a : BitVec 7) (b : BitVec 7) (ea : Bool) (eb : Bool) : Statement (.vadd d a b ea eb) := ⟨_, rfl, rfl⟩
theorem vsub (d : BitVec 7) (a : BitVec 7) (b : BitVec 7) (ea : Bool) (eb : Bool) : Statement (.vsub d a b ea eb) := ⟨_, rfl, rfl⟩
theorem vmul (d : BitVec 7) (a : BitVec 7) (b : BitVec 7) (ea : Bool) (eb : Bool) : Statement (.vmul d a b ea eb) := ⟨_, rfl, rfl⟩
theorem vmulh (d : BitVec 7) (a : BitVec 7) (b : BitVec 7) (ea : Bool) (eb : Bool) : Statement (.vmulh d a b ea eb) := ⟨_, rfl, rfl⟩
theorem vmad (d : BitVec 7) (a : BitVec 7) (b : BitVec 7) (ea : Bool) (eb : Bool) (ed : Bool) : Statement (.vmad d a b ea eb ed) := ⟨_, rfl, rfl⟩
theorem vmin (d : BitVec 7) (a : BitVec 7) (b : BitVec 7) (ea : Bool) (eb : Bool) : Statement (.vmin d a b ea eb) := ⟨_, rfl, rfl⟩
theorem vmax (d : BitVec 7) (a : BitVec 7) (b : BitVec 7) (ea : Bool) (eb : Bool) : Statement (.vmax d a b ea eb) := ⟨_, rfl, rfl⟩
theorem vabsd (d : BitVec 7) (a : BitVec 7) (b : BitVec 7) (ea : Bool) (eb : Bool) : Statement (.vabsd d a b ea eb) := ⟨_, rfl, rfl⟩
theorem vand (d : BitVec 7) (a : BitVec 7) (b : BitVec 7) (ea : Bool) (eb : Bool) : Statement (.vand d a b ea eb) := ⟨_, rfl, rfl⟩
theorem vor (d : BitVec 7) (a : BitVec 7) (b : BitVec 7) (ea : Bool) (eb : Bool) : Statement (.vor d a b ea eb) := ⟨_, rfl, rfl⟩
theorem vxor (d : BitVec 7) (a : BitVec 7) (b : BitVec 7) (ea : Bool) (eb : Bool) : Statement (.vxor d a b ea eb) := ⟨_, rfl, rfl⟩
theorem vandn (d : BitVec 7) (a : BitVec 7) (b : BitVec 7) (ea : Bool) (eb : Bool) : Statement (.vandn d a b ea eb) := ⟨_, rfl, rfl⟩
theorem vshl (d : BitVec 7) (a : BitVec 7) (b : BitVec 7) (ea : Bool) (eb : Bool) : Statement (.vshl d a b ea eb) := ⟨_, rfl, rfl⟩
theorem vshr (d : BitVec 7) (a : BitVec 7) (b : BitVec 7) (ea : Bool) (eb : Bool) : Statement (.vshr d a b ea eb) := ⟨_, rfl, rfl⟩
theorem vsra (d : BitVec 7) (a : BitVec 7) (b : BitVec 7) (ea : Bool) (eb : Bool) : Statement (.vsra d a b ea eb) := ⟨_, rfl, rfl⟩
theorem vsel (d : BitVec 7) (a : BitVec 7) (b : BitVec 7) (ea : Bool) (eb : Bool) : Statement (.vsel d a b ea eb) := ⟨_, rfl, rfl⟩
theorem vmov (d : BitVec 7) (a : BitVec 7) (ea : Bool) : Statement (.vmov d a ea) := ⟨_, rfl, rfl⟩
theorem vli (d : BitVec 7) (lit : BitVec 32) : Statement (.vli d lit) := ⟨_, rfl, rfl⟩
theorem vpopc (d : BitVec 7) (a : BitVec 7) (ea : Bool) : Statement (.vpopc d a ea) := ⟨_, rfl, rfl⟩
theorem vclz (d : BitVec 7) (a : BitVec 7) (ea : Bool) : Statement (.vclz d a ea) := ⟨_, rfl, rfl⟩
theorem vbfe (d : BitVec 7) (a : BitVec 7) (b : BitVec 7) (ea : Bool) (eb : Bool) : Statement (.vbfe d a b ea eb) := ⟨_, rfl, rfl⟩
theorem vbfi (d : BitVec 7) (a : BitVec 7) (b : BitVec 7) (ea : Bool) (eb : Bool) (ed : Bool) : Statement (.vbfi d a b ea eb ed) := ⟨_, rfl, rfl⟩
theorem vcmpeq (a : BitVec 7) (b : BitVec 7) (ea : Bool) (eb : Bool) : Statement (.vcmpeq a b ea eb) := ⟨_, rfl, rfl⟩
theorem vcmpne (a : BitVec 7) (b : BitVec 7) (ea : Bool) (eb : Bool) : Statement (.vcmpne a b ea eb) := ⟨_, rfl, rfl⟩
theorem vcmplt (a : BitVec 7) (b : BitVec 7) (ea : Bool) (eb : Bool) : Statement (.vcmplt a b ea eb) := ⟨_, rfl, rfl⟩
theorem vcmple (a : BitVec 7) (b : BitVec 7) (ea : Bool) (eb : Bool) : Statement (.vcmple a b ea eb) := ⟨_, rfl, rfl⟩
theorem vlaneid (d : BitVec 7) : Statement (.vlaneid d) := ⟨_, rfl, rfl⟩
theorem vdot4 (d : BitVec 7) (a : BitVec 7) (b : BitVec 7) (ea : Bool) (eb : Bool) (ed : Bool) : Statement (.vdot4 d a b ea eb ed) := ⟨_, rfl, rfl⟩
theorem fadd (d : BitVec 7) (a : BitVec 7) (b : BitVec 7) (ea : Bool) (eb : Bool) : Statement (.fadd d a b ea eb) := ⟨_, rfl, rfl⟩
theorem fsub (d : BitVec 7) (a : BitVec 7) (b : BitVec 7) (ea : Bool) (eb : Bool) : Statement (.fsub d a b ea eb) := ⟨_, rfl, rfl⟩
theorem fmul (d : BitVec 7) (a : BitVec 7) (b : BitVec 7) (ea : Bool) (eb : Bool) : Statement (.fmul d a b ea eb) := ⟨_, rfl, rfl⟩
theorem ffma (d : BitVec 7) (a : BitVec 7) (b : BitVec 7) (ea : Bool) (eb : Bool) (ed : Bool) : Statement (.ffma d a b ea eb ed) := ⟨_, rfl, rfl⟩
theorem fmin (d : BitVec 7) (a : BitVec 7) (b : BitVec 7) (ea : Bool) (eb : Bool) : Statement (.fmin d a b ea eb) := ⟨_, rfl, rfl⟩
theorem fmax (d : BitVec 7) (a : BitVec 7) (b : BitVec 7) (ea : Bool) (eb : Bool) : Statement (.fmax d a b ea eb) := ⟨_, rfl, rfl⟩
theorem fabs (d : BitVec 7) (a : BitVec 7) (ea : Bool) : Statement (.fabs d a ea) := ⟨_, rfl, rfl⟩
theorem fneg (d : BitVec 7) (a : BitVec 7) (ea : Bool) : Statement (.fneg d a ea) := ⟨_, rfl, rfl⟩
theorem fcmpeq (a : BitVec 7) (b : BitVec 7) (ea : Bool) (eb : Bool) : Statement (.fcmpeq a b ea eb) := ⟨_, rfl, rfl⟩
theorem fcmplt (a : BitVec 7) (b : BitVec 7) (ea : Bool) (eb : Bool) : Statement (.fcmplt a b ea eb) := ⟨_, rfl, rfl⟩
theorem fcmple (a : BitVec 7) (b : BitVec 7) (ea : Bool) (eb : Bool) : Statement (.fcmple a b ea eb) := ⟨_, rfl, rfl⟩
theorem fcmpun (a : BitVec 7) (b : BitVec 7) (ea : Bool) (eb : Bool) : Statement (.fcmpun a b ea eb) := ⟨_, rfl, rfl⟩
theorem frnd (d : BitVec 7) (a : BitVec 7) (m : BitVec 3) (ea : Bool) : Statement (.frnd d a m ea) := ⟨_, rfl, rfl⟩
theorem fclass (a : BitVec 7) (b : BitVec 7) (ea : Bool) (eb : Bool) : Statement (.fclass a b ea eb) := ⟨_, rfl, rfl⟩
theorem fsfu (d : BitVec 7) (a : BitVec 7) (n : BitVec 3) (ea : Bool) : Statement (.fsfu d a n ea) := ⟨_, rfl, rfl⟩
theorem cvt (d : BitVec 7) (a : BitVec 7) (k : BitVec 2) (t : BitVec 5) (ea : Bool) (ed : Bool) : Statement (.cvt d a k t ea ed) := ⟨_, rfl, rfl⟩
theorem cvtn (d : BitVec 7) (a : BitVec 7) (k : BitVec 2) (j : BitVec 4) (ea : Bool) (ed : Bool) : Statement (.cvtn d a k j ea ed) := ⟨_, rfl, rfl⟩
theorem cvtw (d : BitVec 7) (a : BitVec 7) (k : BitVec 2) (j : BitVec 4) (ea : Bool) : Statement (.cvtw d a k j ea) := ⟨_, rfl, rfl⟩
theorem vtag (d : BitVec 7) (t : BitVec 5) : Statement (.vtag d t) := ⟨_, rfl, rfl⟩
theorem vgettag (d : BitVec 7) (a : BitVec 7) (ea : Bool) : Statement (.vgettag d a ea) := ⟨_, rfl, rfl⟩
theorem vcmpr (d : BitVec 7) (a : BitVec 7) (ea : Bool) : Statement (.vcmpr d a ea) := ⟨_, rfl, rfl⟩
theorem vshfl (d : BitVec 7) (a : BitVec 7) (b : BitVec 7) (ea : Bool) (eb : Bool) : Statement (.vshfl d a b ea eb) := ⟨_, rfl, rfl⟩
theorem vshfli (d : BitVec 7) (a : BitVec 7) (m : BitVec 2) (n : BitVec 5) (ea : Bool) : Statement (.vshfli d a m n ea) := ⟨_, rfl, rfl⟩
theorem vred (d : BitVec 7) (a : BitVec 7) (p : BitVec 3) (ea : Bool) : Statement (.vred d a p ea) := ⟨_, rfl, rfl⟩
theorem vscan (d : BitVec 7) (a : BitVec 7) (p : BitVec 3) (ea : Bool) : Statement (.vscan d a p ea) := ⟨_, rfl, rfl⟩
theorem vbcast (d : BitVec 7) (a : BitVec 7) (b : BitVec 7) (ea : Bool) (eb : Bool) : Statement (.vbcast d a b ea eb) := ⟨_, rfl, rfl⟩
theorem vmovs (d : BitVec 7) (a : BitVec 7) (b : BitVec 7) (ea : Bool) (eb : Bool) : Statement (.vmovs d a b ea eb) := ⟨_, rfl, rfl⟩
theorem vmovv (d : BitVec 7) (a : BitVec 7) (b : BitVec 7) (ea : Bool) (eb : Bool) : Statement (.vmovv d a b ea eb) := ⟨_, rfl, rfl⟩
theorem ldB (d : BitVec 7) (base : BitVec 7) (off : BitVec 6) (ebase : Bool) : Statement (.ldB d base off ebase) := ⟨_, rfl, rfl⟩
theorem ldH (d : BitVec 7) (base : BitVec 7) (off : BitVec 6) (ebase : Bool) : Statement (.ldH d base off ebase) := ⟨_, rfl, rfl⟩
theorem ldW (d : BitVec 7) (base : BitVec 7) (off : BitVec 6) (ebase : Bool) : Statement (.ldW d base off ebase) := ⟨_, rfl, rfl⟩
theorem ldD (d : BitVec 7) (base : BitVec 7) (off : BitVec 6) (ebase : Bool) : Statement (.ldD d base off ebase) := ⟨_, rfl, rfl⟩
theorem ldQ (d : BitVec 7) (base : BitVec 7) (off : BitVec 6) (ebase : Bool) : Statement (.ldQ d base off ebase) := ⟨_, rfl, rfl⟩
theorem stB (d : BitVec 7) (base : BitVec 7) (off : BitVec 6) (ebase : Bool) : Statement (.stB d base off ebase) := ⟨_, rfl, rfl⟩
theorem stH (d : BitVec 7) (base : BitVec 7) (off : BitVec 6) (ebase : Bool) : Statement (.stH d base off ebase) := ⟨_, rfl, rfl⟩
theorem stW (d : BitVec 7) (base : BitVec 7) (off : BitVec 6) (ebase : Bool) : Statement (.stW d base off ebase) := ⟨_, rfl, rfl⟩
theorem stD (d : BitVec 7) (base : BitVec 7) (off : BitVec 6) (ebase : Bool) : Statement (.stD d base off ebase) := ⟨_, rfl, rfl⟩
theorem stQ (d : BitVec 7) (base : BitVec 7) (off : BitVec 6) (ebase : Bool) : Statement (.stQ d base off ebase) := ⟨_, rfl, rfl⟩
theorem ldAcqW (d : BitVec 7) (base : BitVec 7) (off : BitVec 6) (scope : BitVec 3) (ebase : Bool) : Statement (.ldAcqW d base off scope ebase) := ⟨_, rfl, rfl⟩
theorem ldAcqD (d : BitVec 7) (base : BitVec 7) (off : BitVec 6) (scope : BitVec 3) (ebase : Bool) : Statement (.ldAcqD d base off scope ebase) := ⟨_, rfl, rfl⟩
theorem stRelW (d : BitVec 7) (base : BitVec 7) (off : BitVec 6) (scope : BitVec 3) (ebase : Bool) : Statement (.stRelW d base off scope ebase) := ⟨_, rfl, rfl⟩
theorem stRelD (d : BitVec 7) (base : BitVec 7) (off : BitVec 6) (scope : BitVec 3) (ebase : Bool) : Statement (.stRelD d base off scope ebase) := ⟨_, rfl, rfl⟩
theorem sld (d : BitVec 7) (base : BitVec 7) (off : BitVec 6) (ebase : Bool) : Statement (.sld d base off ebase) := ⟨_, rfl, rfl⟩
theorem sldD (d : BitVec 7) (base : BitVec 7) (off : BitVec 6) (ebase : Bool) : Statement (.sldD d base off ebase) := ⟨_, rfl, rfl⟩
theorem sst (d : BitVec 7) (base : BitVec 7) (off : BitVec 6) (ebase : Bool) : Statement (.sst d base off ebase) := ⟨_, rfl, rfl⟩
theorem sstD (d : BitVec 7) (base : BitVec 7) (off : BitVec 6) (ebase : Bool) : Statement (.sstD d base off ebase) := ⟨_, rfl, rfl⟩
theorem ldsW (d : BitVec 7) (base : BitVec 7) (off : BitVec 6) (ebase : Bool) : Statement (.ldsW d base off ebase) := ⟨_, rfl, rfl⟩
theorem ldsD (d : BitVec 7) (base : BitVec 7) (off : BitVec 6) (ebase : Bool) : Statement (.ldsD d base off ebase) := ⟨_, rfl, rfl⟩
theorem ldsQ (d : BitVec 7) (base : BitVec 7) (off : BitVec 6) (ebase : Bool) : Statement (.ldsQ d base off ebase) := ⟨_, rfl, rfl⟩
theorem stsW (d : BitVec 7) (base : BitVec 7) (off : BitVec 6) (ebase : Bool) : Statement (.stsW d base off ebase) := ⟨_, rfl, rfl⟩
theorem stsD (d : BitVec 7) (base : BitVec 7) (off : BitVec 6) (ebase : Bool) : Statement (.stsD d base off ebase) := ⟨_, rfl, rfl⟩
theorem stsQ (d : BitVec 7) (base : BitVec 7) (off : BitVec 6) (ebase : Bool) : Statement (.stsQ d base off ebase) := ⟨_, rfl, rfl⟩
theorem atomAdd (d : BitVec 7) (addr : BitVec 7) (b : BitVec 7) (scope : BitVec 3) : Statement (.atomAdd d addr b scope) := ⟨_, rfl, rfl⟩
theorem atomMin (d : BitVec 7) (addr : BitVec 7) (b : BitVec 7) (scope : BitVec 3) : Statement (.atomMin d addr b scope) := ⟨_, rfl, rfl⟩
theorem atomMax (d : BitVec 7) (addr : BitVec 7) (b : BitVec 7) (scope : BitVec 3) : Statement (.atomMax d addr b scope) := ⟨_, rfl, rfl⟩
theorem atomAnd (d : BitVec 7) (addr : BitVec 7) (b : BitVec 7) (scope : BitVec 3) : Statement (.atomAnd d addr b scope) := ⟨_, rfl, rfl⟩
theorem atomOr (d : BitVec 7) (addr : BitVec 7) (b : BitVec 7) (scope : BitVec 3) : Statement (.atomOr d addr b scope) := ⟨_, rfl, rfl⟩
theorem atomXor (d : BitVec 7) (addr : BitVec 7) (b : BitVec 7) (scope : BitVec 3) : Statement (.atomXor d addr b scope) := ⟨_, rfl, rfl⟩
theorem atomXchg (d : BitVec 7) (addr : BitVec 7) (b : BitVec 7) (scope : BitVec 3) : Statement (.atomXchg d addr b scope) := ⟨_, rfl, rfl⟩
theorem atomCas (d : BitVec 7) (addr : BitVec 7) (b : BitVec 7) (scope : BitVec 3) : Statement (.atomCas d addr b scope) := ⟨_, rfl, rfl⟩
theorem atomsAdd (d : BitVec 7) (addr : BitVec 7) (b : BitVec 7) : Statement (.atomsAdd d addr b) := ⟨_, rfl, rfl⟩
theorem atomsMin (d : BitVec 7) (addr : BitVec 7) (b : BitVec 7) : Statement (.atomsMin d addr b) := ⟨_, rfl, rfl⟩
theorem atomsMax (d : BitVec 7) (addr : BitVec 7) (b : BitVec 7) : Statement (.atomsMax d addr b) := ⟨_, rfl, rfl⟩
theorem atomsOr (d : BitVec 7) (addr : BitVec 7) (b : BitVec 7) : Statement (.atomsOr d addr b) := ⟨_, rfl, rfl⟩
theorem atomsXchg (d : BitVec 7) (addr : BitVec 7) (b : BitVec 7) : Statement (.atomsXchg d addr b) := ⟨_, rfl, rfl⟩
theorem atomsCas (d : BitVec 7) (addr : BitVec 7) (b : BitVec 7) : Statement (.atomsCas d addr b) := ⟨_, rfl, rfl⟩
theorem red (d : BitVec 7) (addr : BitVec 7) (b : BitVec 7) (scope : BitVec 3) : Statement (.red d addr b scope) := ⟨_, rfl, rfl⟩
theorem fence (kind : BitVec 2) (s : BitVec 3) : Statement (.fence kind s) := ⟨_, rfl, rfl⟩
theorem prefetch (d : BitVec 7) (base : BitVec 7) (off : BitVec 6) (scope : BitVec 3) (ebase : Bool) : Statement (.prefetch d base off scope ebase) := ⟨_, rfl, rfl⟩
theorem cflush (d : BitVec 7) (base : BitVec 7) (off : BitVec 6) (scope : BitVec 3) (ebase : Bool) : Statement (.cflush d base off scope ebase) := ⟨_, rfl, rfl⟩
theorem cinv (d : BitVec 7) (base : BitVec 7) (off : BitVec 6) (scope : BitVec 3) (ebase : Bool) : Statement (.cinv d base off scope ebase) := ⟨_, rfl, rfl⟩
theorem icinv (addr : BitVec 7) (b : BitVec 7) (scope : BitVec 3) : Statement (.icinv addr b scope) := ⟨_, rfl, rfl⟩
theorem monw (d : BitVec 7) (addr : BitVec 7) (b : BitVec 7) (scope : BitVec 3) : Statement (.monw d addr b scope) := ⟨_, rfl, rfl⟩
theorem pgmap (d : BitVec 7) (addr : BitVec 7) (b : BitVec 7) : Statement (.pgmap d addr b) := ⟨_, rfl, rfl⟩
theorem pgshare (d : BitVec 7) (addr : BitVec 7) (b : BitVec 7) : Statement (.pgshare d addr b) := ⟨_, rfl, rfl⟩
theorem pgrel (d : BitVec 7) (addr : BitVec 7) (b : BitVec 7) : Statement (.pgrel d addr b) := ⟨_, rfl, rfl⟩
theorem tlbinv (addr : BitVec 7) (b : BitVec 7) : Statement (.tlbinv addr b) := ⟨_, rfl, rfl⟩
theorem binit (d : BitVec 7) (a : BitVec 7) (ea : Bool) (ed : Bool) : Statement (.binit d a ea ed) := ⟨_, rfl, rfl⟩
theorem barr (d : BitVec 7) (a : BitVec 7) (ea : Bool) : Statement (.barr d a ea) := ⟨_, rfl, rfl⟩
theorem barrDrop (d : BitVec 7) (a : BitVec 7) (ea : Bool) : Statement (.barrDrop d a ea) := ⟨_, rfl, rfl⟩
theorem bexp (d : BitVec 7) (a : BitVec 7) (ea : Bool) (ed : Bool) : Statement (.bexp d a ea ed) := ⟨_, rfl, rfl⟩
theorem bexpAdd (d : BitVec 7) (a : BitVec 7) (ea : Bool) (ed : Bool) : Statement (.bexpAdd d a ea ed) := ⟨_, rfl, rfl⟩
theorem bwait (p : BitVec 7) (kreg : BitVec 7) : Statement (.bwait p kreg) := ⟨_, rfl, rfl⟩
theorem btest (d : BitVec 7) (a : BitVec 7) (ea : Bool) : Statement (.btest d a ea) := ⟨_, rfl, rfl⟩
theorem cpyt (d : BitVec 7) (a : BitVec 7) (ea : Bool) (ed : Bool) (lit : BitVec 32) : Statement (.cpyt d a ea ed lit) := ⟨_, rfl, rfl⟩
theorem kick (p : BitVec 7) (n : BitVec 5) : Statement (.kick p n) := ⟨_, rfl, rfl⟩
theorem rsubLd (d : BitVec 7) (a : BitVec 7) (ea : Bool) : Statement (.rsubLd d a ea) := ⟨_, rfl, rfl⟩
theorem rsubSt (d : BitVec 7) (a : BitVec 7) (ea : Bool) : Statement (.rsubSt d a ea) := ⟨_, rfl, rfl⟩
theorem rput (a : BitVec 7) (ea : Bool) : Statement (.rput a ea) := ⟨_, rfl, rfl⟩
theorem rrel (a : BitVec 7) (ea : Bool) : Statement (.rrel a ea) := ⟨_, rfl, rfl⟩
theorem rcancel (a : BitVec 7) (ea : Bool) : Statement (.rcancel a ea) := ⟨_, rfl, rfl⟩
theorem gbar : Statement (.gbar) := ⟨_, rfl, rfl⟩
theorem waitc (c : BitVec 3) (n : BitVec 6) : Statement (.waitc c n) := ⟨_, rfl, rfl⟩
theorem gth (a : BitVec 7) (ea : Bool) : Statement (.gth a ea) := ⟨_, rfl, rfl⟩
theorem cpyred (a : BitVec 7) (ea : Bool) : Statement (.cpyred a ea) := ⟨_, rfl, rfl⟩
theorem tdef (a : BitVec 7) (n : BitVec 5) (ea : Bool) : Statement (.tdef a n ea) := ⟨_, rfl, rfl⟩
theorem tdefMeas (n : BitVec 5) : Statement (.tdefMeas n) := ⟨_, rfl, rfl⟩
theorem tinfo (d : BitVec 7) (w : BitVec 2) (n : BitVec 5) : Statement (.tinfo d w n) := ⟨_, rfl, rfl⟩
theorem ttrans (hA : BitVec 5) (hB : BitVec 5) : Statement (.ttrans hA hB) := ⟨_, rfl, rfl⟩
theorem tscl (d : BitVec 7) (a : BitVec 7) (s : BitVec 5) (ea : Bool) : Statement (.tscl d a s ea) := ⟨_, rfl, rfl⟩
theorem tcvt (hA : BitVec 5) (hB : BitVec 5) : Statement (.tcvt hA hB) := ⟨_, rfl, rfl⟩
theorem tld (d : BitVec 7) (a : BitVec 7) (s : Bool) (n : BitVec 5) (ea : Bool) (ed : Bool) : Statement (.tld d a s n ea ed) := ⟨_, rfl, rfl⟩
theorem tst (d : BitVec 7) (a : BitVec 7) (s : Bool) (n : BitVec 5) (ea : Bool) (ed : Bool) : Statement (.tst d a s n ea ed) := ⟨_, rfl, rfl⟩
theorem acq (chain : Bool) (bank : BitVec 4) : Statement (.acq chain bank) := ⟨_, rfl, rfl⟩
theorem rel (chain : Bool) (bank : BitVec 4) : Statement (.rel chain bank) := ⟨_, rfl, rfl⟩
theorem bclr (chain : Bool) (bank : BitVec 4) (p : Bool) : Statement (.bclr chain bank p) := ⟨_, rfl, rfl⟩
theorem ldw (hB : BitVec 5) : Statement (.ldw hB) := ⟨_, rfl, rfl⟩
theorem swpw : Statement (.swpw) := ⟨_, rfl, rfl⟩
theorem mma (bank : BitVec 4) (hA : BitVec 5) (r : BitVec 2) (c : BitVec 2) (g : Bool) (s : BitVec 3) : Statement (.mma bank hA r c g s) := ⟨_, rfl, rfl⟩
theorem mmac (bank : BitVec 4) (hA : BitVec 5) (r : BitVec 2) (c : BitVec 2) (g : Bool) (s : BitVec 3) : Statement (.mmac bank hA r c g s) := ⟨_, rfl, rfl⟩
theorem ard (chain : Bool) (bank : BitVec 4) (hA : BitVec 5) (r : BitVec 2) (c : BitVec 2) : Statement (.ard chain bank hA r c) := ⟨_, rfl, rfl⟩
theorem awr (bank : BitVec 4) (hA : BitVec 5) (r : BitVec 2) (c : BitVec 2) (p : Bool) : Statement (.awr bank hA r c p) := ⟨_, rfl, rfl⟩
theorem bndrd (d : BitVec 7) (n : BitVec 4) : Statement (.bndrd d n) := ⟨_, rfl, rfl⟩
theorem bndrdStat (d : BitVec 7) (n : BitVec 4) : Statement (.bndrdStat d n) := ⟨_, rfl, rfl⟩
theorem bndwr (a : BitVec 7) (n : BitVec 4) (ea : Bool) : Statement (.bndwr a n ea) := ⟨_, rfl, rfl⟩
theorem bndwrInv (n : BitVec 4) : Statement (.bndwrInv n) := ⟨_, rfl, rfl⟩
theorem hbnd (d : BitVec 7) (n : BitVec 5) : Statement (.hbnd d n) := ⟨_, rfl, rfl⟩
theorem hbndMax (d : BitVec 7) (n : BitVec 5) : Statement (.hbndMax d n) := ⟨_, rfl, rfl⟩
theorem hbndRaise (a : BitVec 7) (n : BitVec 5) (ea : Bool) : Statement (.hbndRaise a n ea) := ⟨_, rfl, rfl⟩
theorem hbndSet (a : BitVec 7) (n : BitVec 5) (ea : Bool) : Statement (.hbndSet a n ea) := ⟨_, rfl, rfl⟩
theorem mlogStat (d : BitVec 7) (n : BitVec 4) : Statement (.mlogStat d n) := ⟨_, rfl, rfl⟩
theorem mlogReissue (d : BitVec 7) (n : BitVec 4) : Statement (.mlogReissue d n) := ⟨_, rfl, rfl⟩
theorem mlogSeal (n : BitVec 4) : Statement (.mlogSeal n) := ⟨_, rfl, rfl⟩
theorem rwload (d : BitVec 7) (a : BitVec 7) (n : BitVec 6) (ea : Bool) (ed : Bool) : Statement (.rwload d a n ea ed) := ⟨_, rfl, rfl⟩
theorem rwloadDef (n : BitVec 6) : Statement (.rwloadDef n) := ⟨_, rfl, rfl⟩
theorem rwflush : Statement (.rwflush) := ⟨_, rfl, rfl⟩
theorem rwstat (d : BitVec 7) (func : BitVec 7) (fl : Bool) : Statement (.rwstat d func fl) := ⟨_, rfl, rfl⟩
theorem trcmark (p : BitVec 7) (k : BitVec 12) : Statement (.trcmark p k) := ⟨_, rfl, rfl⟩
theorem trcctlOn : Statement (.trcctlOn) := ⟨_, rfl, rfl⟩
theorem trcctlOff : Statement (.trcctlOff) := ⟨_, rfl, rfl⟩
theorem trcctlSync : Statement (.trcctlSync) := ⟨_, rfl, rfl⟩
theorem trcctlFlush : Statement (.trcctlFlush) := ⟨_, rfl, rfl⟩
theorem trcctlCfg (a : BitVec 7) (ea : Bool) : Statement (.trcctlCfg a ea) := ⟨_, rfl, rfl⟩
theorem smplctl (a : BitVec 7) (ea : Bool) : Statement (.smplctl a ea) := ⟨_, rfl, rfl⟩
theorem smplctlOff : Statement (.smplctlOff) := ⟨_, rfl, rfl⟩
theorem rdpmc (d : BitVec 7) (func : BitVec 7) : Statement (.rdpmc d func) := ⟨_, rfl, rfl⟩
theorem rdpmcHi (d : BitVec 7) (func : BitVec 7) : Statement (.rdpmcHi d func) := ⟨_, rfl, rfl⟩
theorem sqkick (tail : BitVec 32) : Statement (.sqkick tail) := trivial
theorem job : Statement (.job) := trivial
theorem preempt : Statement (.preempt) := trivial
theorem restore : Statement (.restore) := trivial
theorem grant : Statement (.grant) := trivial
theorem reclaim : Statement (.reclaim) := trivial
theorem create : Statement (.create) := trivial
theorem teardown : Statement (.teardown) := trivial
theorem attest : Statement (.attest) := trivial
theorem attach : Statement (.attach) := trivial
theorem halt : Statement (.halt) := trivial
theorem resume : Statement (.resume) := trivial
theorem freeze : Statement (.freeze) := trivial
theorem thaw : Statement (.thaw) := trivial
theorem step : Statement (.step) := trivial
theorem setbp : Statement (.setbp) := trivial
theorem debugIcinv : Statement (.debugIcinv) := trivial
theorem dump : Statement (.dump) := trivial
theorem wrreg : Statement (.wrreg) := trivial
theorem toHost (slot : BitVec 6) : Statement (.toHost slot) := trivial
theorem toDevice (slot : BitVec 6) : Statement (.toDevice slot) := trivial
theorem registerWrite (bar2 : Bool) (off : BitVec 24) (val : BitVec 64) : Statement (.registerWrite bar2 off val) := trivial
theorem l2quotaWrite (die : BitVec 2) (val : BitVec 64) : Statement (.l2quotaWrite die val) := trivial
theorem powercapWrite (val : BitVec 64) : Statement (.powercapWrite val) := trivial
theorem budgetWrite (island : BitVec 5) (val : BitVec 32) : Statement (.budgetWrite island val) := trivial
theorem hostWindowAccess (off : Nat) (wide : Bool) (wr : Option (BitVec 64)) : Statement (.hostWindowAccess off wide wr) := trivial
theorem i2cRead (off : BitVec 24) : Statement (.i2cRead off) := trivial
theorem i2cWrite (off : BitVec 24) (val : BitVec 32) : Statement (.i2cWrite off val) := trivial
theorem throttleAssert : Statement (.throttleAssert) := trivial
theorem throttleRelease : Statement (.throttleRelease) := trivial
theorem coldReset (jframe : BitVec 36) (failStep : BitVec 8) (badGroves : List Nat) : Statement (.coldReset jframe failStep badGroves) := trivial
theorem packageCurrentLimit : Statement (.packageCurrentLimit) := trivial
theorem thermalLimit (island : BitVec 5) (temp : BitVec 32) : Statement (.thermalLimit island temp) := trivial
theorem laneFailure (port : Nat) : Statement (.laneFailure port) := trivial
theorem linkLoss (port : Nat) : Statement (.linkLoss port) := trivial
theorem fabricTransaction (id : Nat) (wr : Bool) (op off : Nat) (tag : BitVec 16) (size : Nat) (data : List (BitVec 8)) : Statement (.fabricTransaction id wr op off tag size data) := trivial
theorem fabricTimeout (id : Nat) : Statement (.fabricTimeout id) := trivial
theorem hbmScrub (frame : BitVec 36) (fixes : Nat) : Statement (.hbmScrub frame fixes) := trivial
theorem channelSparing (stack : Nat) : Statement (.channelSparing stack) := trivial
theorem l2WayRetire (die slice setIdx way : Nat) : Statement (.l2WayRetire die slice setIdx way) := trivial
theorem frameRetire (frame : BitVec 36) (bad : Bool) : Statement (.frameRetire frame bad) := trivial
theorem groveRetire (grove : Nat) : Statement (.groveRetire grove) := trivial
theorem lendingEnter (core : Nat) : Statement (.lendingEnter core) := trivial
theorem carveUpdate (core : Nat) : Statement (.carveUpdate core) := trivial
theorem headroomRead (die : Nat) (used : List Nat) : Statement (.headroomRead die used) := trivial
theorem placementDecision (die : Nat) : Statement (.placementDecision die) := trivial
theorem localStoreDrain (team : Nat) : Statement (.localStoreDrain team) := trivial
theorem windowZeroFill (team : Nat) : Statement (.windowZeroFill team) := trivial
theorem eclassRefine (ctx unit mean : Nat) : Statement (.eclassRefine ctx unit mean) := trivial
theorem teamComplete (team : Nat) : Statement (.teamComplete team) := trivial
theorem poolStart (ctx unit : Nat) : Statement (.poolStart ctx unit) := trivial
theorem deadlockWalk (ctx : Nat) : Statement (.deadlockWalk ctx) := trivial
theorem watchdog (g : Nat) : Statement (.watchdog g) := trivial
theorem monitorTimeout (g : Nat) : Statement (.monitorTimeout g) := trivial
theorem monitorEnd (g : Nat) : Statement (.monitorEnd g) := trivial
theorem sampleTick (core slot : Nat) : Statement (.sampleTick core slot) := trivial
theorem sampleTag (core slot : Nat) : Statement (.sampleTag core slot) := trivial
theorem taggedRecord (core slot : Nat) : Statement (.taggedRecord core slot) := trivial
theorem traceBlockWrite (core : Nat) : Statement (.traceBlockWrite core) := trivial
theorem saveRequest (ctx : Nat) : Statement (.saveRequest ctx) := trivial
theorem preemptDeadline (ctx : Nat) : Statement (.preemptDeadline ctx) := trivial
theorem contextSave (ctx : Nat) : Statement (.contextSave ctx) := trivial
theorem tableWalk (req : Nat) : Statement (.tableWalk req) := trivial
theorem shootdownAccept (ctx : Nat) : Statement (.shootdownAccept ctx) := trivial
theorem shootdownInvalidation (ctx target : Nat) : Statement (.shootdownInvalidation ctx target) := trivial
theorem shootdownAck (ctx target : Nat) : Statement (.shootdownAck ctx target) := trivial
theorem gets (grove : Nat) (line : Nat) (first n : Nat) : Statement (.gets grove line first n) := trivial
theorem getw (grove : Nat) (line : Nat) (first n : Nat) : Statement (.getw grove line first n) := trivial
theorem coherenceGrant (g : Nat) : Statement (.coherenceGrant g) := trivial
theorem recallWords (grove line : Nat) (mask : BitVec 32) : Statement (.recallWords grove line mask) := trivial
theorem inv (grove line : Nat) (mask : BitVec 32) : Statement (.inv grove line mask) := trivial
theorem binv (grove line : Nat) : Statement (.binv grove line) := trivial
theorem wb (grove line : Nat) (mask : BitVec 32) : Statement (.wb grove line mask) := trivial
theorem drop (grove line : Nat) (mask : BitVec 32) : Statement (.drop grove line mask) := trivial
theorem atomicRequest (grove : Nat) : Statement (.atomicRequest grove) := trivial
theorem atomicReply (g : Nat) : Statement (.atomicReply g) := trivial
theorem loadReturn (g : Nat) : Statement (.loadReturn g) := trivial
theorem fetchFill (req : Nat) : Statement (.fetchFill req) := trivial
theorem engineRequestStart (core cls : Nat) : Statement (.engineRequestStart core cls) := trivial
theorem engineChunkDone (core n : Nat) : Statement (.engineChunkDone core n) := trivial
theorem gatherBatch (core n : Nat) : Statement (.gatherBatch core n) := trivial
theorem copyReduceUpdate (core n : Nat) : Statement (.copyReduceUpdate core n) := trivial
theorem loaderFill (sub : Nat) : Statement (.loaderFill sub) := trivial
theorem storerDrain (sub : Nat) : Statement (.storerDrain sub) := trivial
theorem arrayStepStart (array : Nat) : Statement (.arrayStepStart array) := trivial
theorem arrayStepEnd (array : Nat) : Statement (.arrayStepEnd array) := trivial
theorem reissue (array bank : Nat) : Statement (.reissue array bank) := trivial
theorem tileTransferDone (op : Nat) : Statement (.tileTransferDone op) := trivial
theorem trapEntry (g : Nat) : Statement (.trapEntry g) := trivial
theorem faultHalt (ctx : Nat) : Statement (.faultHalt ctx) := trivial
theorem containment (ctx : Nat) : Statement (.containment ctx) := trivial
theorem forcedReset (ctx : Nat) : Statement (.forcedReset ctx) := trivial
theorem fabricResponse (id : Nat) (code : BitVec 8) (det : BitVec 32) (data : List (BitVec 8)) : Statement (.fabricResponse id code det data) := trivial

end Sys2Proof.Laws.Encoding
end

