-- ==== Sys2Proof/Tests/Slice0.lean ====
section
/-! SUPPORT. Tests: terms that are not well formed, words that the spec writes out, single steps on small states, and for
every statement with hypotheses a state that meets them. -/

open Sys2Proof Sys2Proof.Machine
set_option Elab.async false
set_option linter.unusedSimpArgs false
set_option synthInstance.maxSize 4096
set_option synthInstance.maxHeartbeats 400000

/-! ### Ill-formed terms: one for each check of WellFormed (R125 to R127) -/

theorem test_ill_scalar_code : (Instr.sadd 64 1 2 false false).defect = some .registerCode := by decide
theorem test_ill_scalar_source : (Instr.sadd 3 1 64 false false).defect = some .registerCode := by decide
theorem test_ill_vector_dest : (Instr.vmad 100 1 2 false true false).defect = some .registerCode := by decide
theorem test_ill_scalar_only_dest : (Instr.vgettag 5 6 false).defect = some .registerCode := by decide
theorem test_ill_pair : (Instr.mcount 13).defect = some .registerCode := by decide
theorem test_ill_quad : (Instr.ldQ 6 100 0 false).defect = some .registerCode := by decide
theorem test_ill_scope : (Instr.ldAcqW 2 102 0 5 false).defect = some .scopeField := by decide
theorem test_ill_prefetch_scope : (Instr.prefetch 1 4 0 4 false).defect = some .valueField := by decide
theorem test_ill_fence_kind : (Instr.fence 3 0).defect = some .valueField := by decide
theorem test_ill_cancel_level : (Instr.cancel 10 5).defect = some .valueField := by decide
theorem test_ill_red_op : (Instr.red 6 6 1 3).defect = some .unassignedFunc := by decide
theorem test_ill_vred_op : (Instr.vred 101 9 6 false).defect = some .valueField := by decide
theorem test_ill_tag_value : (Instr.vtag 9 13).defect = some .valueField := by decide
theorem test_ill_tag_pair : (Instr.vtag 9 8).defect = some .registerCode := by decide
theorem test_ill_waitc_class : (Instr.waitc 6 0).defect = some .valueField := by decide
theorem test_ill_side_pair : (Instr.tld 21 8 true 5 false false).defect = some .registerCode := by decide
theorem test_ill_side_flag : (Instr.tld 0 8 false 5 false true).defect = some .unusedField := by decide
theorem test_ill_bclr : (Instr.bclr true 1 true).defect = some .unusedField := by decide
theorem test_ill_def_entry : (Instr.rwloadDef 61).defect = some .valueField := by decide
theorem test_ill_counter : (Instr.rdpmc 4 0x30).defect = some .unassignedFunc := by decide

/-! ### Words that the spec writes out -/

theorem test_words_06 :
    decode 0x44080412 0 = .ok (.vmad 4 1 2 false true false) ∧ decode 0x400E0F28 0 = .ok (.vadd 7 3 101 false false) ∧
    decode 0x02060412 0 = .ok (.sadd 3 1 2 false true) ∧ decode 0x030A17FA 0 = .ok (.saddi 5 5 0x1FD false) ∧
    decode 0x82119040 0 = .ok (.ldW 8 100 4 false) ∧ decode 0x51140000 0x3F800000 = .ok (.vli 10 0x3F800000) ∧
    decode 0x21FFFFF0 0 = .ok (.brs 0xFFFFF0) ∧ decode 0x44090412 0 = .ok (.vmad 4 65 2 false true false) := by decide

theorem test_refused_06 :
    decode 0x28000000 0 = .error .reservedOpcode ∧ decode 0x02060411 0 = .error .unusedField ∧
    decode 0x028C0410 0 = .error .registerCode ∧ (decode 0x8211904E 0).toOption = none ∧
    decode 0x44C80412 0 = .error .registerCode := by decide

theorem test_words_07 :
    decode 0x8A059806 0 = .ok (.ldAcqW 2 102 0 3 false) ∧ decode 0x8E041020 0 = .ok (.sld 2 4 2 false) ∧
    decode 0x9503A400 0 = .ok (.stsW 1 105 0 false) ∧ decode 0x9804180B 0 = .ok (.atomAdd 2 6 1 3) ∧
    decode 0xA600180B 0 = .ok (.red 0 6 1 3) ∧ decode 0xA7013000 0 = .ok (.fence 2 3) ∧
    decode 0xAC281053 0 = .ok (.monw 20 4 10 3) ∧ decode 0xB0001033 0 = .ok (.tlbinv 4 6) := by decide

theorem test_words_08 :
    decode 0xB1143000 0 = .ok (.binit 10 12 false false) ∧ decode 0xB2182800 0 = .ok (.barr 12 10 false) ∧
    decode 0xB2182808 0 = .ok (.barrDrop 12 10 false) ∧ decode 0xB414000C 0 = .ok (.bwait 10 12) ∧
    decode 0xB8063800 0 = .ok (.rsubLd 3 14 false) ∧ decode 0xBA003800 0 = .ok (.rrel 14 false) ∧
    decode 0xBC000000 0 = .ok .gbar ∧ decode 0xB2182810 0 = .error .unassignedFunc ∧
    decode 0xBD006000 0 = .error .valueField ∧ decode 0xB8063801 0 = .error .unusedField := by decide

theorem test_words_10 :
    decode 0xD00A0018 0 = .ok (.bndrd 5 3) ∧ decode 0xD00A0098 0 = .ok (.bndrdStat 5 3) ∧
    decode 0xD1001818 0 = .ok (.bndwr 6 3 false) ∧ decode 0xD2001F10 0 = .ok (.hbndSet 7 2 false) ∧
    decode 0xD3120098 0 = .ok (.mlogReissue 9 3) ∧ decode 0xD00A0118 0 = .error .unassignedFunc := by decide

theorem test_words_13 :
    decode 0x16060410 0 = .ok (.scmpltI 3 1 2 false false) ∧ decode 0x0F0C1E20 0 = .ok (.sshiSra 6 7 4 false) ∧
    decode 0x1B140000 0x00400000 = .ok (.sli 10 0x00400000) ∧ decode 0x1C0403FE 0 = .ok (.smovi 2 0x1FF) ∧
    decode 0x26000100 0 = .ok (.call 0x100) ∧ decode 0x2700FC00 0 = .ok (.jr 63 false) ∧
    decode 0x30002800 0 = .ok (.mexec 10 false) ∧ decode 0x31140000 0 = .ok (.mrdexec 10) ∧
    decode 0x3B060040 0 = .ok (.wrsr 3 0x040) ∧ decode 0x3C141000 0 = .ok (.cancel 10 1) ∧
    decode 0x3D185000 0 = .ok (.tspawn 12 20 false) ∧ decode 0x3E180000 0 = .ok (.mcount 12) := by decide

theorem test_refused_13 :
    decode 0x3E1A0000 0 = .error .registerCode ∧ decode 0x3C145000 0 = .error .valueField ∧
    decode 0x02081200 0 = .error .registerCode ∧ decode 0x29000001 0 = .error .unusedField ∧
    decode 0x2C000000 0 = .ok .rett := by decide

theorem test_words_14 :
    decode 0x60060410 0 = .ok (.fadd 3 1 2 false false) ∧ decode 0x63101028 0 = .ok (.ffma 8 4 5 false false false) ∧
    decode 0x6E0C0808 0 = .ok (.fsfu 6 2 1 false) ∧ decode 0x4F0C0410 0 = .ok (.vsel 6 1 2 false false) ∧
    decode 0x58000410 0 = .ok (.vcmplt 1 2 false false) ∧ decode 0x6D000F20 0 = .ok (.fclass 3 100 false false) ∧
    decode 0x5B100818 0 = .ok (.vdot4 8 2 3 false false false) ∧ decode 0x5A000000 0 = .ok (.vlaneid 0) ∧
    decode 0x70140D58 0 = .ok (.cvt 10 3 1 0xB false false) := by decide

theorem test_words_14b :
    decode 0x71181D18 0 = .ok (.cvtn 12 7 2 3 false false) ∧ decode 0x73120028 0 = .ok (.vtag 9 5) ∧
    decode 0x75281000 0 = .ok (.vcmpr 20 4 false) ∧ decode 0x79040480 0 = .ok (.vshfli 2 1 0 16 false) ∧
    decode 0x7ACA2400 0 = .ok (.vred 101 9 0 false) ∧ decode 0x7DC41F18 0 = .ok (.vmovs 98 7 99 false false) ∧
    decode 0x740A0C00 0 = .error .registerCode ∧ decode 0x6E0C0840 0 = .error .unassignedFunc ∧
    decode 0x7ACA2430 0 = .error .valueField ∧ decode 0x58020410 0 = .error .unusedField := by decide

theorem test_words_15 :
    decode 0xC0003028 0 = .ok (.tdef 12 5 false) ∧ decode 0xC0000128 0 = .ok (.tdefMeas 5) ∧
    decode 0xC1120028 0 = .ok (.tinfo 9 0 5) ∧ decode 0xC2008A00 0 = .ok (.ttrans 2 5) ∧
    decode 0xC3040C28 0 = .ok (.tscl 2 3 5 false) ∧ decode 0xC4008A00 0 = .ok (.tcvt 2 5) ∧
    decode 0xC5282128 0 = .ok (.tld 20 8 true 5 false false) ∧ decode 0xC6002028 0 = .ok (.tst 0 8 false 5 false false) ∧
    decode 0xC7180000 0 = .ok (.acq false 3) ∧ decode 0xC7980000 0 = .ok (.acq true 3) ∧
    decode 0xC8180000 0 = .ok (.rel false 3) := by decide

theorem test_words_15b :
    decode 0xC9080001 0 = .ok (.bclr false 1 true) ∧ decode 0xCA000C00 0 = .ok (.ldw 6) ∧ decode 0xCB000000 0 = .ok .swpw ∧
    decode 0xCC1940C0 0 = .ok (.mma 3 5 1 2 false 0) ∧ decode 0xCC1940CF 0 = .ok (.mma 3 5 1 2 true 7) ∧
    decode 0xCD910000 0 = .ok (.mmac 2 4 0 0 false 0) ∧ decode 0xCE19C0C0 0 = .ok (.ard false 3 7 1 2) ∧
    decode 0xCF094001 0 = .ok (.awr 1 5 0 0 true) := by decide

theorem test_refused_15 :
    (decode 0xCC1940D0 0).toOption = none ∧ (decode 0xCD110000 0).toOption = none ∧
    decode 0xCB000001 0 = .error .unusedField ∧ decode 0xC0000228 0 = .error .unassignedFunc ∧
    decode 0xC52A2128 0 = .error .registerCode := by decide

theorem test_words_16_18 :
    decode 0xE0081800 0 = .ok (.rwload 4 6 0 false false) ∧ decode 0xE0000220 0 = .ok (.rwloadDef 4) ∧
    decode 0xE20E0008 0 = .ok (.rwstat 7 1 false) ∧ decode 0xE20E0209 0 = .ok (.rwstat 7 0x41 true) ∧
    decode 0xE80A0007 0 = .ok (.trcmark 5 7) ∧ decode 0xE9000000 0 = .ok .trcctlOn ∧ decode 0xE9000018 0 = .ok .trcctlFlush ∧
    decode 0xE9001820 0 = .ok (.trcctlCfg 6 false) ∧ decode 0xEA001800 0 = .ok (.smplctl 6 false) ∧
    decode 0xEA000008 0 = .ok .smplctlOff ∧ decode 0xEB080100 0 = .ok (.rdpmc 4 0x20) ∧
    decode 0xEB080101 0 = .ok (.rdpmcHi 4 0x20) := by decide

theorem test_refused_16_18 :
    decode 0xE20E0228 0 = .error .unassignedFunc ∧ decode 0xE0081C00 0 = .error .registerCode ∧
    decode 0xEB080180 0 = .error .unassignedFunc ∧ decode 0xE9000028 0 = .error .unassignedFunc ∧
    decode 0xE90A0000 0 = .error .unusedField := by decide

/-- Words of the programs of chapters 16 and 20. -/
theorem test_words_programs :
    decode 0x8CE9E002 0 = .ok (.stRelW 116 120 0 1 false) ∧ decode 0x7DE82368 0 = .ok (.vmovs 116 8 109 false false) ∧
    decode 0x20FFFFFB 0 = .ok (.bra 0xFFFFFB) ∧ decode 0xC62C4130 0 = .ok (.tst 22 16 true 6 false false) ∧
    decode 0xB6180000 0xE0 = .ok (.cpyt 12 0 false false 0xE0) ∧ decode 0xCC21C008 0 = .ok (.mma 4 7 0 0 true 0) ∧
    decode 0xC3102438 0 = .ok (.tscl 8 9 7 false) ∧ decode 0xBD003000 0 = .ok (.waitc 3 0) := by decide

/-! ### States that meet the hypotheses of the statements -/

/-- A group of context 1 and team 3 on core 0, with MODE.TYPE I32 and lanes 0 and 1 active. -/
def tstG : Group :=
  { live := true, key := 2, ctx := 1, team := 3, st := .issuing, pc := 0x10000, mode := 0x1000, exec := 3, cmask := 1
    s := [(1, 5), (2, 0xFFFFFFFE), (4, 0x10100), (5, 0), (6, 0x1020), (8, 4092), (12, 0x10000)], v := [(128, 7), (129, 9), (160, 3), (161, 4)] }
/-- The package with that group, its team with a window of 4 KiB, and its page in the core's micro-TLB. -/
def tst : State :=
  { State.reset with
    g := tstG, tm := { live := true, key := 3, ctx := 1, size := 1, w := 4096 }, cx := { live := true, num := 1, partAll := true }
    cores := [(0, { utlb := [fetchEntry] })], fresh := 10 }
/-- The same under MODE.TYPE F32. -/
def tstF : State := { tst with g := { tst.g with mode := 0x1020 } }
theorem test_meets_ScalarResults : ∃ r, scalarRow tst.g (.sadd 3 1 2 false false) = some r ∧ (∀ c ∈ r.srcs, tst.g.readyS c) ∧
    tst.g.readyS r.d := ⟨_, rfl, by simp only [Group.readyS, Group.readyX, Group.readyP, Group.readyT, Group.openS, Group.openX, Group.openP, Group.openT, Group.fullS, Group.fullV, Group.soundS, Group.soundV, Group.codesPlain, Group.tagged, Group.taggedN]; decide, by simp only [Group.readyS, Group.readyX, Group.readyP, Group.readyT, Group.openS, Group.openX, Group.openP, Group.openT, Group.fullS, Group.fullV, Group.soundS, Group.soundV, Group.codesPlain, Group.tagged, Group.taggedN]; decide⟩
theorem test_meets_BranchTakesItsTarget : branchRow tst.g (.brs 4) = some (false, 4) := by decide
theorem test_meets_VectorElements : ∃ r, vecRow tst.g (.vadd 3 4 5 false false) = some r ∧ r.types = true ∧ r.d.toNat < 96 ∧
    (∀ c ∈ r.srcs, tst.g.readyT c ∧ tst.g.tagged c) ∧ tst.g.readyT r.d :=
  ⟨_, rfl, by decide, by decide, by simp only [Group.readyS, Group.readyX, Group.readyP, Group.readyT, Group.openS, Group.openX, Group.openP, Group.openT, Group.fullS, Group.fullV, Group.soundS, Group.soundV, Group.codesPlain, Group.tagged, Group.taggedN]; decide,
    by simp only [Group.readyS, Group.readyX, Group.readyP, Group.readyT, Group.openS, Group.openX, Group.openP, Group.openT, Group.fullS, Group.fullV, Group.soundS, Group.soundV, Group.codesPlain, Group.tagged, Group.taggedN]; decide⟩
theorem test_meets_VectorMoves : ∃ r, moveRow tst.g (.vshfl 3 4 5 false false) = some r ∧ tst.g.type ≤ 12 ∧ r.d.toNat < 96 ∧
    tst.g.codesPlain ∧ (∀ c ∈ r.srcs, tst.g.readyT c) ∧ (∀ c ∈ r.idx, tst.g.readyX c) ∧ tst.g.readyT r.d :=
  ⟨_, rfl, by decide, by decide, by simp only [Group.readyS, Group.readyX, Group.readyP, Group.readyT, Group.openS, Group.openX, Group.openP, Group.openT, Group.fullS, Group.fullV, Group.soundS, Group.soundV, Group.codesPlain, Group.tagged, Group.taggedN]; decide, by simp only [Group.readyS, Group.readyX, Group.readyP, Group.readyT, Group.openS, Group.openX, Group.openP, Group.openT, Group.fullS, Group.fullV, Group.soundS, Group.soundV, Group.codesPlain, Group.tagged, Group.taggedN]; decide,
    by simp only [Group.readyS, Group.readyX, Group.readyP, Group.readyT, Group.openS, Group.openX, Group.openP, Group.openT, Group.fullS, Group.fullV, Group.soundS, Group.soundV, Group.codesPlain, Group.tagged, Group.taggedN]; decide, by simp only [Group.readyS, Group.readyX, Group.readyP, Group.readyT, Group.openS, Group.openX, Group.openP, Group.openT, Group.fullS, Group.fullV, Group.soundS, Group.soundV, Group.codesPlain, Group.tagged, Group.taggedN]; decide⟩
theorem test_meets_VectorCompares : ∃ c, compareRow tst.g (.vcmplt 4 5 false false) = some (true, 4, 5, c) ∧ tst.g.readyT 4 ∧
    tst.g.readyT 5 ∧ tst.g.tagged 4 ∧ tst.g.tagged 5 :=
  ⟨_, rfl, by simp only [Group.readyS, Group.readyX, Group.readyP, Group.readyT, Group.openS, Group.openX, Group.openP, Group.openT, Group.fullS, Group.fullV, Group.soundS, Group.soundV, Group.codesPlain, Group.tagged, Group.taggedN]; decide⟩
theorem test_meets_VectorLanes : ∃ r, laneRow tst.g (.vdot4 6 4 5 false false false) = some r ∧ r.ok = true ∧ r.d.toNat < 96 ∧
    (∀ p ∈ r.srcs, tst.g.readyP p.1 p.2) ∧ tst.g.readyP r.d (if r.wide then 2 else 1) ∧
    (tst.g.fmtTrap = true → ∀ p ∈ r.tags, p.1.toNat < 96 → ∀ k, k < p.2.1 → p.2.2 (tst.g.tag (p.1.toNat + k)) = true) :=
  ⟨_, rfl, by simp only [Group.readyS, Group.readyX, Group.readyP, Group.readyT, Group.openS, Group.openX, Group.openP, Group.openT, Group.fullS, Group.fullV, Group.soundS, Group.soundV, Group.codesPlain, Group.tagged, Group.taggedN]; decide⟩
theorem test_meets_TagsAndScalars : (tst.g.readyP 6 (if tag64 1 then 2 else 1)) ∧ (tst.g.readyX 4 ∧ tst.g.readyX 99) ∧
    tst.g.readyT 4 ∧ tst.g.tagged 4 ∧ tst.g.readyT 99 := by
  simp only [Group.readyS, Group.readyX, Group.readyP, Group.readyT, Group.openS, Group.openX, Group.openP, Group.openT, Group.fullS, Group.fullV, Group.soundS, Group.soundV, Group.codesPlain, Group.tagged, Group.taggedN]; decide
theorem test_meets_ClassAndCompress : typeFloat tstF.g.type = true ∧ tstF.g.type = 8 ∧ tstF.g.readyT 4 ∧ tstF.g.tagged 4 ∧
    tstF.g.readyX 100 ∧ tstF.g.readyX 6 := by
  simp only [Group.readyS, Group.readyX, Group.readyP, Group.readyT, Group.openS, Group.openX, Group.openP, Group.openT, Group.fullS, Group.fullV, Group.soundS, Group.soundV, Group.codesPlain, Group.tagged, Group.taggedN]; decide
theorem test_meets_LateResults : tstF.g.type = 8 ∧ tstF.g.readyT 4 ∧ tstF.g.tagged 4 ∧ tstF.g.readyT 6 ∧ tstF.g.readyT 101 ∧
    tstF.g.active ≠ 0 ∧ ({ tstF.g with exec := 0 } : Group).active = 0 ∧ ({ tstF.g with exec := 0 } : Group).readyT 4 := by
  simp only [Group.readyS, Group.readyX, Group.readyP, Group.readyT, Group.openS, Group.openX, Group.openP, Group.openT, Group.fullS, Group.fullV, Group.soundS, Group.soundV, Group.codesPlain, Group.tagged, Group.taggedN]; decide
theorem test_meets_TreeSum : tst.g.type < 8 ∧ tst.g.sat = false ∧ 0 < typeN tst.g.type := by decide
theorem test_meets_ScalarReads : readRow tst (.mrdexec 3) = some (3, [3]) ∧ tst.g.readyS 3 ∧ tst.g.replay = [] := by
  simp only [Group.readyS, Group.readyX, Group.readyP, Group.readyT, Group.openS, Group.openX, Group.openP, Group.openT, Group.fullS, Group.fullV, Group.soundS, Group.soundV, Group.codesPlain, Group.tagged, Group.taggedN]; decide
theorem test_meets_CallAndReturn : tst.g.readyS 63 ∧ tst.g.readyS 1 := by simp only [Group.readyS, Group.readyX, Group.readyP, Group.readyT, Group.openS, Group.openX, Group.openP, Group.openT, Group.fullS, Group.fullV, Group.soundS, Group.soundV, Group.codesPlain, Group.tagged, Group.taggedN]; decide
theorem test_meets_MaskInstructions : tst.g.readyS 1 ∧ ({ tst.g with exec := 0 } : Group).exec = 0 := by
  simp only [Group.readyS, Group.readyX, Group.readyP, Group.readyT, Group.openS, Group.openX, Group.openP, Group.openT, Group.fullS, Group.fullV, Group.soundS, Group.soundV, Group.codesPlain, Group.tagged, Group.taggedN]; decide
theorem test_meets_ModeAndFormats : (tst.g.readyS 6 ∧ modeLegal (tst.g.sreg 6) = true) ∧
    (tst.g.readyS 5 ∧ modeLegal ((tst.g.mode &&& ~~~tst.g.sreg 5) ||| (tst.g.sreg 6 &&& tst.g.sreg 5)) = true ∧
    fmtLegal (tst.g.sreg 5) = true) ∧
    tst.g.rule = none ∧ tst.g.forced = false ∧ modeLegal (tst.g.sreg 2) = false ∧ modeLegal 0xFFFFE32 = true ∧
    modeLegal 0x12 = true ∧ modeLegal 0x13 = false ∧ modeLegal 0x280 = false ∧ fmtLegal 0x120763 = true := by
  simp only [Group.readyS, Group.readyX, Group.readyP, Group.readyT, Group.openS, Group.openX, Group.openP, Group.openT, Group.fullS, Group.fullV, Group.soundS, Group.soundV, Group.codesPlain, Group.tagged, Group.taggedN]; decide
theorem test_meets_SystemRegisters : (tst.readSysReg 0x200 ≠ none ∧ tst.readSysReg 0x001 ≠ none) ∧ tst.g.readyS 1 ∧ tst.g.tr.preq = false ∧
    tst.g.rule = none ∧ tst.g.forced = false ∧ tst.readSysReg 0xFFF = none ∧ tst.g.mayWrite 0x200 = false ∧
    ({ tst.g with priv := true } : Group).priv = true := by
  simp only [Group.readyS, Group.readyX, Group.readyP, Group.readyT, Group.openS, Group.openX, Group.openP, Group.openT, Group.fullS, Group.fullV, Group.soundS, Group.soundV, Group.codesPlain, Group.tagged, Group.taggedN]; decide
theorem test_meets_TrapOrFault : ({ code := .trap } : Raise).taken { tst with g := { tst.g with tr := { thand := 0x20001 } } } ∧
    ¬ ({ code := .trap } : Raise).taken tst ∧ ¬ ({ code := .eccUncorrectable } : Raise).taken { tst with g := { tst.g with tr := { thand := 0x20001 } } } := by
  simp only [Raise.taken]; decide
theorem test_meets_TrapInstructions : tst.preciseCheck = .ok ∧ tst.cx.attach = false := by decide
theorem test_meets_TrapReturn :
    (let g : Group := { tst.g with tr := { inH := true, tsmode := 0x1020 } }
     g.tr.inH = true ∧ modeLegal g.tr.tsmode = true ∧ g.tr.preq = false) ∧ tst.g.rule = none ∧ tst.g.tr.inH = false := by decide
theorem test_meets_TrapReturn_deferred :
    (let g : Group := { tst.g with tr := { inH := true, preq := true, tsmode := 0x1020, thand := 1 } }
     g.tr.inH = true ∧ modeLegal g.tr.tsmode = true ∧ g.tr.preq = true ∧ g.tr.smask = false ∧ g.live = true ∧ g.inProgress = false) ∧
    (let s : State := { tst with g := { tst.g with tr := { inH := true, thand := 1 } } }
     s.g.tr.inH = true ∧ Raise.taken s { code := .trap }) := ⟨by decide, rfl, rfl, by decide, rfl⟩
/-- An aligned access at s4:s5 reaches the page's frame. -/
theorem test_reaches : tst.reaches .read 16 (tst.g.vaddr 100 0 16 0) 0x10100 fetchEntry ∧
    tst.reaches .write 16 (tst.g.vaddr 100 0 16 0) 0x10100 fetchEntry := ⟨by rfl, by rfl⟩
theorem test_acts (l : Nat) (h : tst.g.acts l) : l = 0 ∨ l = 1 := by
  have := show ∀ l, l < 32 → laneBit tst.g.active l = true → l = 0 ∨ l = 1 by decide
  exact this l h.1 h.2
/-- The same with no active lane. -/
def tstE0 : State := { tst with g := { tst.g with exec := 0 } }
theorem test_meets_VectorLoads : loadRow (.ldQ 8 100 0 false) = some (16, 8, 100, 0) ∧ tst.g.readyX 100 2 ∧
    tst.g.openX 8 (sizeRegs 16) ∧ tst.g.count 0 < 63 ∧ tst.noAtoms ∧ tst.g.active ≠ 0 ∧
    (∀ l, tst.g.acts l → tst.reaches .read 16 (tst.g.vaddr 100 0 16 l) 0x10100 fetchEntry) ∧
    (tstE0.g.openX 100 2 ∧ tstE0.g.openX 8 (sizeRegs 16) ∧ tstE0.g.active = 0) ∧ ∀ p ∈ tst.pend, p.grove ≠ 0 := by
  refine ⟨rfl, by simp only [Group.readyS, Group.readyX, Group.readyP, Group.readyT, Group.openS, Group.openX, Group.openP, Group.openT, Group.fullS, Group.fullV, Group.soundS, Group.soundV, Group.codesPlain, Group.tagged, Group.taggedN]; decide, by simp only [Group.readyS, Group.readyX, Group.readyP, Group.readyT, Group.openS, Group.openX, Group.openP, Group.openT, Group.fullS, Group.fullV, Group.soundS, Group.soundV, Group.codesPlain, Group.tagged, Group.taggedN]; decide,
    by decide, by simp only [State.noAtoms]; decide, by decide, fun l h => ?_, by simp only [Group.readyS, Group.readyX, Group.readyP, Group.readyT, Group.openS, Group.openX, Group.openP, Group.openT, Group.fullS, Group.fullV, Group.soundS, Group.soundV, Group.codesPlain, Group.tagged, Group.taggedN]; decide, by decide⟩
  rcases test_acts l h with rfl | rfl <;> rfl
/-- The grove holds the words of the line at 0x10100 with write permission. -/
def tstGr : State := { tst with groves := [(0, { l1 := [(0x202 * 32, { valid := true, granted := true })] })] }
theorem test_meets_VectorStores : storeRow (.stRelW 4 100 0 3 false) = some (4, 4, 100, 0, some 3) ∧ tst.g.readyX 100 2 ∧
    tst.g.readyX 4 (sizeRegs 4) ∧ tst.g.count 1 < 63 ∧ tst.noAtoms ∧ tst.released 3 ∧
    (∀ l, tst.g.acts l → tst.reaches .write 4 (tst.g.vaddr 100 0 4 l) 0x10100 fetchEntry ∧ inFdt 0x10100 = false) ∧
    ¬ tst.performsNow 0x10100 4 fetchEntry ∧ tst.performsNow 0x10100 4 { fetchEntry with home := 3 } ∧ tstGr.performsNow 0x10100 4 fetchEntry := by
  refine ⟨rfl, by simp only [Group.readyS, Group.readyX, Group.readyP, Group.readyT, Group.openS, Group.openX, Group.openP, Group.openT, Group.fullS, Group.fullV, Group.soundS, Group.soundV, Group.codesPlain, Group.tagged, Group.taggedN]; decide, by simp only [Group.readyS, Group.readyX, Group.readyP, Group.readyT, Group.openS, Group.openX, Group.openP, Group.openT, Group.fullS, Group.fullV, Group.soundS, Group.soundV, Group.codesPlain, Group.tagged, Group.taggedN]; decide,
    by decide, by simp only [State.noAtoms]; decide, by simp only [State.released]; decide, fun l h => ?_,
    by simp only [State.performsNow]; decide +kernel, .inl rfl, by simp only [State.performsNow]; decide +kernel⟩
  rcases test_acts l h with rfl | rfl <;> exact ⟨rfl, by decide⟩
theorem test_meets_ScalarMemory : scalarMemRow (.sstD 10 4 0 false) = some (true, 2, 10, 4, 0) ∧ tst.g.readyS 4 2 ∧ tst.g.readyS 10 2 ∧
    tst.g.openS 10 2 ∧ tst.g.count 1 < 63 ∧ tst.noAtoms ∧ inFdt 0x10100 = false ∧
    tst.reaches .write 8 (tst.g.saddr 4 0 8) 0x10100 fetchEntry ∧ tst.reaches .read 4 (tst.g.saddr 4 1 4) 0x10104 fetchEntry :=
  ⟨rfl, by simp only [Group.readyS, Group.readyX, Group.readyP, Group.readyT, Group.openS, Group.openX, Group.openP, Group.openT, Group.fullS, Group.fullV, Group.soundS, Group.soundV, Group.codesPlain, Group.tagged, Group.taggedN]; decide, by simp only [Group.readyS, Group.readyX, Group.readyP, Group.readyT, Group.openS, Group.openX, Group.openP, Group.openT, Group.fullS, Group.fullV, Group.soundS, Group.soundV, Group.codesPlain, Group.tagged, Group.taggedN]; decide, by simp only [Group.readyS, Group.readyX, Group.readyP, Group.readyT, Group.openS, Group.openX, Group.openP, Group.openT, Group.fullS, Group.fullV, Group.soundS, Group.soundV, Group.codesPlain, Group.tagged, Group.taggedN]; decide, by decide,
    by simp only [State.noAtoms]; decide, by decide, by rfl, by rfl⟩
/-- The state with s4 one byte further, and lane 0 alone. -/
def tstM : State := { tst with g := { tst.g with s := [(4, 0x10101)], exec := 1 } }
theorem test_meets_MisalignedLane : loadRow (.ldH 8 100 0 false) = some (2, 8, 100, 0) ∧ tstM.g.openX 8 (sizeRegs 2) ∧ tstM.g.count 0 < 63 ∧
    (storeRow (.stH 8 100 0 false) = some (2, 8, 100, 0, none) ∧ tstM.g.readyX 8 (sizeRegs 2) ∧ tstM.g.count 1 < 63) ∧
    tstM.g.rule = none ∧ tstM.g.forced = false ∧ tstM.g.readyX 100 2 ∧ tstM.noAtoms ∧ tstM.g.acts 0 ∧
    (tstM.g.vaddr 100 0 2 0).toNat % 2 ≠ 0 ∧ ∀ m, m < 0 → tstM.g.acts m → False := by
  refine ⟨rfl, ?_⟩
  simp only [Group.readyS, Group.readyX, Group.readyP, Group.readyT, Group.openS, Group.openX, Group.openP, Group.openT, Group.fullS, Group.fullV, Group.soundS, Group.soundV, Group.codesPlain, Group.tagged, Group.taggedN, State.noAtoms, Group.acts]; decide
theorem test_meets_ScratchpadAccess : spadRow (.stsW 4 99 0 false) = some (true, 4, 4, 99, 0) ∧ tst.g.readyX 99 ∧ tst.g.active ≠ 0 ∧
    tst.g.readyX 4 (sizeRegs 4) ∧ tst.g.count 1 < 63 ∧ (∀ l, tst.g.acts l → tst.g.soff 99 0 4 l = 0 ∧ 0 + 4 ≤ tst.tm.w) ∧
    (∀ l, tst.g.acts l → tst.g.soff 104 0 4 l = 4092 ∧ 4092 % 4 = 0 ∧ 4092 + 4 ≤ tst.tm.w) ∧
    tstE0.g.openX 99 ∧ tstE0.g.openX 4 (sizeRegs 4) ∧ tstE0.g.active = 0 := by
  refine ⟨rfl, by simp only [Group.readyS, Group.readyX, Group.readyP, Group.readyT, Group.openS, Group.openX, Group.openP, Group.openT, Group.fullS, Group.fullV, Group.soundS, Group.soundV, Group.codesPlain, Group.tagged, Group.taggedN]; decide, by decide, by simp only [Group.readyS, Group.readyX, Group.readyP, Group.readyT, Group.openS, Group.openX, Group.openP, Group.openT, Group.fullS, Group.fullV, Group.soundS, Group.soundV, Group.codesPlain, Group.tagged, Group.taggedN]; decide, by decide, ?_, ?_, by simp only [Group.readyS, Group.readyX, Group.readyP, Group.readyT, Group.openS, Group.openX, Group.openP, Group.openT, Group.fullS, Group.fullV, Group.soundS, Group.soundV, Group.codesPlain, Group.tagged, Group.taggedN]; decide⟩ <;>
    (intro l h; rcases test_acts l h with rfl | rfl <;> decide)
theorem test_meets_AtomicsIssue : atomRow (.atomAdd 8 100 5 3) = some (0, some 8, 100, 5, 3) ∧ atomTypes 0 tst.g.type = true ∧
    tst.g.readyP 100 2 ∧ tst.g.readyP 5 (tst.g.atomRegs 0) ∧ tst.g.taggedN 5 (tst.g.atomRegs 0) ∧ tst.g.openT 8 ∧ tst.g.count 0 < 63 ∧
    tst.g.count 1 < 63 ∧ tst.g.active ≠ 0 ∧
    (∀ l, tst.g.acts l → tst.reaches .write (typeW tst.g.type / 8) (tst.g.vpair 100 l) 0x10100 fetchEntry) ∧
    (∀ h, (tst.grove h).svcq.length + ((lanesOf tst.g.active).filter fun _ => homeGrove 0x10100 == h).length ≤ 512) ∧
    (tstE0.g.openX 100 2 ∧ tstE0.g.openX 5 (tstE0.g.atomRegs 0) ∧ tstE0.g.openT 8 ∧ tstE0.g.active = 0) := by
  refine ⟨rfl, by decide, by simp only [Group.readyS, Group.readyX, Group.readyP, Group.readyT, Group.openS, Group.openX, Group.openP, Group.openT, Group.fullS, Group.fullV, Group.soundS, Group.soundV, Group.codesPlain, Group.tagged, Group.taggedN]; decide, by simp only [Group.readyS, Group.readyX, Group.readyP, Group.readyT, Group.openS, Group.openX, Group.openP, Group.openT, Group.fullS, Group.fullV, Group.soundS, Group.soundV, Group.codesPlain, Group.tagged, Group.taggedN]; decide, by simp only [Group.readyS, Group.readyX, Group.readyP, Group.readyT, Group.openS, Group.openX, Group.openP, Group.openT, Group.fullS, Group.fullV, Group.soundS, Group.soundV, Group.codesPlain, Group.tagged, Group.taggedN]; decide,
    by simp only [Group.readyS, Group.readyX, Group.readyP, Group.readyT, Group.openS, Group.openX, Group.openP, Group.openT, Group.fullS, Group.fullV, Group.soundS, Group.soundV, Group.codesPlain, Group.tagged, Group.taggedN]; decide, by decide, by decide, by decide, fun l h => ?_, fun h => ?_, by simp only [Group.readyS, Group.readyX, Group.readyP, Group.readyT, Group.openS, Group.openX, Group.openP, Group.openT, Group.fullS, Group.fullV, Group.soundS, Group.soundV, Group.codesPlain, Group.tagged, Group.taggedN]; decide⟩
  · rcases test_acts l h with rfl | rfl <;> rfl
  · have h1 : (tst.grove h).svcq.length = 0 := rfl
    have h2 : (lanesOf tst.g.active).length = 2 := by decide
    have := List.length_filter_le (fun _ => homeGrove 0x10100 == h) (lanesOf tst.g.active)
    omega
/-- An atomic that waits at grove 0, with its group's wait for the reply. -/
def tstReq : SvcReq :=
  { id := 5, g := 2, lane := 1, op := 0, ty := 0, scope := 3, pa := 0x10104, ctx := 1, vline := 0, cls := 0, home := 0, x := 3, y := 0, ret := true }
def tstA : State :=
  { tst with
    groves := [(0, { svcq := [tstReq] })]
    g := { tst.g with atoms := [{ id := 5, d := 8, wide := false, left := 2, tag := 1, replies := [(1, 0x77)] }]
                      rets := [{ scalar := false, d := 9, n := 1, mask := 3, data := [], tag := some 1, counted := true }] } }
theorem test_meets_AtomicPerformed : (tstA.grove 0).svcq = [tstReq] ∧ tstA.eccBad 0x10104 4 = false ∧ inFdt 0x10104 = false ∧
    tstA.atomBehind tstReq = false ∧ tstA.atomGranted 0 tstReq = false ∧ tstA.coh = [] ∧
    tstA.atomGranted 0 { tstReq with home := 3 } = true ∧ tstReq.ret = true ∧
    ({ tstA with pend := [{ grove := 0, g := 2, insn := 1, pa := 0x10104, bytes := [1, 0, 0, 0], ctx := 1, vline := 0, cls := 0, home := 0 }] } :
      State).atomBehind tstReq = true ∧ ∃ g, tstA.group? 2 = some g := by
  refine ⟨by decide, by decide, by decide, by decide, by decide, by decide, by decide, by decide, by decide, _, rfl⟩
theorem test_meets_RepliesArrive : ∃ g a r, tstA.group? 2 = some g ∧ (g.atoms.find? fun a => !a.replies.isEmpty) = some a ∧
    a.replies = [(1, 0x77)] ∧ setBit a.left 1 false = 0 ∧ g.rets = [r] ∧ r.fail = none ∧ (∀ q ∈ tstA.coh, q.g = 2 → q.write = true) ∧
    ({ r with fail := some { code := .eccUncorrectable } } : Ret).fail = some { code := .eccUncorrectable } ∧
    g.st ≠ .ended ∧ g.st ≠ .stopped :=
  ⟨_, _, _, rfl, rfl, rfl, by decide, rfl, rfl, by decide, rfl, by decide, by decide⟩
theorem test_meets_ScratchpadAtomics : spadAtomRow (.atomsAdd 8 99 5) = some (0, 8, 99, 5) ∧ tst.g.type = 0 ∧ tst.g.readyX 99 ∧
    tst.g.readyP 5 (tst.g.atomRegs 0) ∧ tst.g.taggedN 5 (tst.g.atomRegs 0) ∧ tst.g.openX 8 ∧ tst.g.count 0 < 63 ∧ tst.g.active ≠ 0 ∧
    (∀ l, tst.g.acts l → (tst.g.vsrc 99 l).toNat = 0 ∧ 0 % 4 = 0 ∧ 0 + 4 ≤ tst.tm.w) ∧
    rmw 0 tst.g.type (winNat tst.tm.win 0 4) (tst.g.atomX 5 0) (tst.g.atomY 5 0) = some 3 ∧
    tstE0.g.openX 99 ∧ tstE0.g.openX 5 (tstE0.g.atomRegs 0) ∧ tstE0.g.openX 8 ∧ tstE0.g.active = 0 := by
  refine ⟨rfl, by decide, by simp only [Group.readyS, Group.readyX, Group.readyP, Group.readyT, Group.openS, Group.openX, Group.openP, Group.openT, Group.fullS, Group.fullV, Group.soundS, Group.soundV, Group.codesPlain, Group.tagged, Group.taggedN]; decide, by simp only [Group.readyS, Group.readyX, Group.readyP, Group.readyT, Group.openS, Group.openX, Group.openP, Group.openT, Group.fullS, Group.fullV, Group.soundS, Group.soundV, Group.codesPlain, Group.tagged, Group.taggedN]; decide, by simp only [Group.readyS, Group.readyX, Group.readyP, Group.readyT, Group.openS, Group.openX, Group.openP, Group.openT, Group.fullS, Group.fullV, Group.soundS, Group.soundV, Group.codesPlain, Group.tagged, Group.taggedN]; decide,
    by simp only [Group.readyS, Group.readyX, Group.readyP, Group.readyT, Group.openS, Group.openX, Group.openP, Group.openT, Group.fullS, Group.fullV, Group.soundS, Group.soundV, Group.codesPlain, Group.tagged, Group.taggedN]; decide, by decide, by decide, fun l h => ?_, by decide, by simp only [Group.readyS, Group.readyX, Group.readyP, Group.readyT, Group.openS, Group.openX, Group.openP, Group.openT, Group.fullS, Group.fullV, Group.soundS, Group.soundV, Group.codesPlain, Group.tagged, Group.taggedN]; decide⟩
  rcases test_acts l h with rfl | rfl <;> decide
theorem test_meets_FencesAndCacheControl :
    (tst.noAtoms ∧ tst.g.count 0 = 0 ∧ tst.g.count 1 = 0 ∧ tst.released 3 ∧ tst.g.readyS 4 2 ∧ tst.g.readyS 1 ∧ tst.pend = []) ∧
    (let s := { tst with g := { tst.g with cnt := [(0, [(1, false)])] } }
     s.g.forced = false ∧ s.noAtoms ∧ s.g.count 0 ≠ 0) ∧
    (let s := { tst with g := { tst.g with cnt := [(1, [(1, false)])] } }
     (2 : BitVec 2) ≠ 0 ∧ 2 ≤ (3 : BitVec 3).toNat ∧ s.g.count 1 ≠ 0) ∧
    (∃ ps, tst.cacheRange (tst.g.saddr 4 0 128) (tst.g.sreg 1).toNat = .ok ps) ∧
    ∃ ps, tst.cacheRange (tst.g.spair 4) (tst.g.sreg 1).toNat = .ok ps := by
  refine ⟨by simp only [Group.readyS, Group.readyX, Group.readyP, Group.readyT, Group.openS, Group.openX, Group.openP, Group.openT, Group.fullS, Group.fullV, Group.soundS, Group.soundV, Group.codesPlain, Group.tagged, Group.taggedN, State.noAtoms, State.released]; decide, by simp only [State.noAtoms]; decide, by decide, ⟨_, rfl⟩, ⟨_, rfl⟩⟩
/-- Page tables at frames 2 and 3: VA 0x10000 has no leaf, VA 0x20000 the leaf of frame 0x50, held once. -/
def tstP : State :=
  { tst with
    g := { tst.g with priv := true, s := [(12, 0x10000), (14, 0x20000)] }
    cx := { tst.cx with base := 2, flHead := [(0, 0x40)], flCount := [(0, 1)] }
    mem := writeNat (writeNat (writeNat (writeNat (writeNat [] 0x20000 8 0x30001) 0x30000 8 0x31001) 0x31000 8 0x32001) 0x32010 8 0x50047)
      (fdtAt 0x50 + 8) 2 1 }
theorem test_walk_empty : tstP.pageWalk (tstP.g.spair 12).toNat = .entry 0x32008 0 := by decide
theorem test_walk_leaf : tstP.pageWalk (tstP.g.spair 14).toNat = .entry 0x32010 0x50047 := by decide
theorem test_meets_pgmap : (tstP.cx.live = true ∧ tstP.g.priv = true ∧ tstP.g.readyS 12 2 ∧ tstP.g.readyS 1 ∧ tstP.g.readyS 3 ∧ tstP.noAtoms) ∧
    (tstP.g.spair 12).toNat % 65536 = 0 ∧ tstP.g.sreg 1 &&& 0xFFF0FE03 = 0 ∧ pteV 0 = false ∧ (tstP.cx.head 0).toNat = 0x40 ∧
    apart 0x32008 8 (fdtAt 0x40) 16 ∧ inFdt 0x32008 = false ∧ (tstP.g.spair 12).toNat < 2 ^ 54 ∧ ((tstP.g.sreg 1).extractLsb' 16 4).toNat ≤ 11 := by
  refine ⟨by simp only [Group.readyS, Group.readyX, Group.readyP, Group.readyT, Group.openS, Group.openX, Group.openP, Group.openT, Group.fullS, Group.fullV, Group.soundS, Group.soundV, Group.codesPlain, Group.tagged, Group.taggedN, State.noAtoms]; decide, ?_⟩
  simp only [apart]; decide
theorem test_meets_PageInstructions :
    (∃ cnt code u, pageRow { tstP with cx := { tstP.cx with flHead := [] } } (.pgmap 3 12 1) = some (3, 12, 1, 1, .report cnt code u) ∧ code ≠ 0) ∧
    (pageArg (tstP.g.spair 14).toNat = true ∧ pageArg ((tstP.g.spair 12).toNat / 65536 * 65536) = true ∧
      (tstP.g.spair 12).extractLsb' 1 15 = 0 ∧ pteV 0x50047 = true ∧ pteHown 0x50047 = false ∧
      inHost (pteFrame 0x50047 * 65536) = false ∧ tstP.refcnt (pteFrame 0x50047) = 1) ∧
    apart 0x32010 8 0x32008 8 ∧ apart 0x32010 8 (fdtAt 0x50 + 8) 2 ∧ apart 0x32008 8 (fdtAt 0x50 + 8) 2 ∧ apart 0x32010 8 (fdtAt 0x50) 16 ∧
    (tstP.g.sreg 1).extractLsb' 1 31 = 0 ∧ (tstP.g.sreg 1).getLsbD 0 = false ∧ inFdt 0x32010 = false ∧
    apart 0x32010 8 (0x50 * 65536) 65536 ∧ apart (fdtAt 0x50) 16 (0x50 * 65536) 65536 ∧
    1 < ({ tstP with mem := writeNat tstP.mem (fdtAt 0x50 + 8) 2 2 } : State).refcnt (pteFrame 0x50047) ∧
    ({ tstP.g with s := [(1, 1)] } : Group).sreg 1 = 1 := by
  refine ⟨⟨_, _, _, rfl, by decide⟩, by decide, ?_⟩
  simp only [apart]; decide
/-- A window with a barrier at 0x40 (phase 2, one arrival expected), rings at 0x80 (inactive) and 0xE0 (an active load ring with a slot
taken), and requests at 0xA0 (a subscription) and 0xC0 (a copy of 64 bytes into the window), named by scalars. -/
def tstB : State :=
  { tst with
    tm := { tst.tm with
      win := winWrite (winWrite (winWrite (winWrite (winWrite [] 0x40 (bytesOfNat 8 0x100000002))
        0x80 (bytesOfNat 12 (0x200 + (0x10200 * 2 ^ 32 + 0x100 * 2 ^ 64))))
        0xA0 (bytesOfNat 32 (0x10100 * 2 ^ 200 + 2 ^ 128 + 128 * 2 ^ 112)))
        0xC0 (bytesOfNat 32 (0x10100 * 2 ^ 200 + 0x400 * 2 ^ 144 + 2 ^ 128 + 64 * 2 ^ 112 + 6)))
        0xE0 (bytesOfNat 16 (0x200 + (0x10200 * 2 ^ 32 + 0x100 * 2 ^ 64 + 0x01000080 * 2 ^ 96))) }
    g := { tst.g with s := [(20, 0x40), (21, 1), (22, 0x80), (23, 0xA0), (24, 0xC0), (25, 0xE0), (30, 0xA00002), (32, 0x10100),
      (34, 0x40), (35, 4), (39, 0x80000000), (40, 3)] } }
theorem test_meets_BarrierSteps :
    let b := tstB.tm.bar 0x40
    b = { phase := 2, exparr := 1, arr := 0, expbytes := 0, bytes := 0 } ∧ b.arrive 2 0 = none ∧ b.arrive 0 1 = none ∧
      b.arrive 1 0 = some { b with phase := 3 } ∧ b.arrive 0 0 = some b ∧ b.complete 1 = true ∧ b.complete 2 = false ∧
      b.complete 0x80000002 = true ∧ b.complete 0x80000001 = false := by decide +kernel
theorem test_meets_BarrierInstructions :
    tstB.noAtoms ∧ tstB.objAt (tstB.g.sreg 20) 16 ∧ tstB.g.readyS 28 2 ∧ tstB.g.readyS 20 2 ∧ tstB.g.readyS 12 ∧
    (tstB.tm.bar 0x40).arrive 1 0 = some { phase := 3, exparr := 1, arr := 0, expbytes := 0, bytes := 0 } ∧ (tstB.tm.bar 0x40).arr ≠ (tstB.tm.bar 0x40).exparr ∧
    (tstB.tm.bar 0x40).bytes.toNat ≤ 0 ∧ (tstB.tm.bar 0x40).expbytes.toNat + 0xFFFFFFFF < 2 ^ 32 ∧ tstB.g.rule = none ∧
    tstB.g.forced = false ∧ (tstB.tm.bar 0x300).arrive 1 0 = none ∧ (tstB.tm.bar 0x300).arr = (tstB.tm.bar 0x300).exparr ∧
    tstB.objAt 0xFF0 16 := by
  simp only [Group.readyS, Group.readyX, Group.readyP, Group.readyT, Group.openS, Group.openX, Group.openP, Group.openT, Group.fullS, Group.fullV, Group.soundS, Group.soundV, Group.codesPlain, Group.tagged, Group.taggedN, State.noAtoms, State.objAt]
  decide +kernel
theorem test_meets_Waits :
    (tstB.objAt (tstB.g.sreg 20) 16 ∧ (tstB.tm.bar 0x40).complete (tstB.g.sreg 21) = true ∧
      (tstB.tm.bar 0x40).complete (tstB.g.sreg 40) = false ∧ tstB.g.forced = false) ∧
    (let s := { tstB with g := { tstB.g with cnt := [(0, [(1, true), (2, false)])] } }
     (∀ x ∈ (s.g.ops 0).take ((s.g.ops 0).length - 1), x.2 = true) ∧ ∃ x ∈ (s.g.ops 0).take ((s.g.ops 0).length - 0), x.2 = false) ∧
    (let s := { tstB with g := { tstB.g with coop := true } }
     s.g.coop = true ∧ s.noAtoms ∧ ({ s with g := { s.g with gbarIn := true, gbarUse := 1 } } : State).gbarDone 1 = true) ∧
    (let c : Ctx := { tstB.cx with units := [{ key := 0, job := 0, phase := 0, graph := 0, idx := 0, def_ := {} }] }
     let s := { tstB with g := { tstB.g with coop := true }, others := [{ tstB.g with key := 7, coop := true }], cx := c }
     ({ s with g := { s.g with gbarIn := true, gbarUse := 1 } } : State).gbarDone 1 = false) ∧ tstB.g.coop = false ∧
    tstB.released 3 ∧ tstB.g.gbarIn = false ∧ ¬ ({ tstB with g := { tstB.g with coop := true, cnt := [(0, [(1, false)])] } } : State).released 3 := by
  simp only [State.noAtoms, State.objAt, State.released]; decide +kernel
theorem test_meets_Monitors : (tstB.focused ∧ tstB.g.mon = none ∧ (tstB.grove (groveOf tstB.g.core)).mons.length < 64 ∧ tstB.noAtoms ∧
      tstB.g.readyS 32 2 ∧ tstB.g.readyS 34 2 ∧ tstB.g.openS 37 ∧ (tstB.g.sreg 35).getLsbD 31 = false) ∧
    (tstB.objAt (tstB.g.sreg 34) 16 ∧ (tstB.g.spair 32).toNat % 4 = 0 ∧ (tstB.g.spair 32).toNat % 128 + 4 ≤ 128 ∧
      (tstB.g.sreg 39).getLsbD 31 = true ∧ tstB.eccBad 0x10100 4 = false) ∧ tstB.reaches .read 4 (tstB.g.spair 32) 0x10100 fetchEntry := by
  refine ⟨?_, ?_, by rfl⟩
  · simp only [Group.readyS, Group.readyX, Group.readyP, Group.readyT, Group.openS, Group.openX, Group.openP, Group.openT, Group.fullS, Group.fullV, Group.soundS, Group.soundV, Group.codesPlain, Group.tagged, Group.taggedN, State.noAtoms, State.focused]; decide +kernel
  · simp only [State.objAt]; decide +kernel
/-- The monitor of that group as it ends with cause 1, and one that has met no cause. -/
def tstMon : Monitor := { pa := 0x10100, va := 0x10100, words := 1, scope := 3, obj := 0x40, token := 36, timeout := 4, cause := some 1 }
def tstN : State := { tstB with g := { tstB.g with mon := some tstMon }, groves := [(0, { mons := [2] })] }
theorem test_meets_MonitorEnd : tstN.group? 2 = some tstN.g ∧ tstN.g.mon = some tstMon ∧ tstN.team? tstN.g.team = some tstN.tm ∧
    ((tstN.grove (groveOf tstN.g.core)).mons.erase 2).length < 64 ∧ tstMon.token ≠ (37 : BitVec 7).toNat ∧
    tstN.lineUp 1 = false ∧ ({ tstN with cx := { tstN.cx with halt := .raised } } : State).lineUp 1 = true ∧
    tstN.tm.eccBad tstMon.obj 16 = false ∧ ({ tstMon with cause := none } : Monitor).timeout ≠ 0 ∧
    (tstN.tm.bar tstMon.obj).arrive 1 0 = some { phase := 3, exparr := 1, arr := 0, expbytes := 0, bytes := 0 } := by decide +kernel
theorem test_meets_EngineRequests : (engineRow tstB.g (.kick 24 0) = some (0, 24, [0xC0]) ∧ tstB.g.readyS 24 ∧ tstB.noAtoms ∧
      tstB.g.count (engClass 0) + 1 ≤ 63 ∧ tstB.tm.requestCheck 0 0xC0 = .ok ∧
      (tstB.engs.filter fun e => e.core == tstB.g.core && e.cls == 0).length + 1 ≤ engRoom 0) ∧
    (tstB.g.readyS 32 2 ∧ tstB.g.readyS 30 ∧ tstB.g.count 2 < 63 ∧ (tstB.engs.filter fun e => e.core == tstB.g.core && e.cls == 0).length < 64 ∧
      let tok := tstB.g.sreg 30
      tok.toNat / 2 ^ 17 * 16 + 64 ≤ tstB.tm.w ∧ tok.getLsbD 1 = true ∧ tok.toNat / 4 % 2 ^ 15 * 16 = 0) := by
  simp only [Group.readyS, Group.readyX, Group.readyP, Group.readyT, Group.openS, Group.openX, Group.openP, Group.openT, Group.fullS, Group.fullV, Group.soundS, Group.soundV, Group.codesPlain, Group.tagged, Group.taggedN, State.noAtoms]; decide +kernel
theorem test_meets_Rings :
    (tstB.objAt (tstB.g.sreg 22) 16 ∧ tstB.objAt (tstB.g.sreg 23) 32 ∧ tstB.g.readyS 22 2 ∧ tstB.g.openS 3 ∧ tstB.noAtoms ∧
      let r := tstB.tm.ring 0x80
      let q := tstB.tm.request 0xA0
      r.bad = false ∧ q.subBad q.dstride = false ∧ r.slotOff + r.nslot * (128 * r.slotsz) ≤ tstB.tm.w ∧
      r.barOff + 16 * r.nslot ≤ tstB.tm.w ∧ r.active = false ∧ (q.rows - 1 : Nat) * q.dstride + q.rowlen ≤ (128 * r.slotsz : Nat) ∧
      inHbm 0x10100 = true ∧ tstB.subs = []) ∧
    (tstB.objAt (tstB.g.sreg 25) 16 ∧ ringRow (tstB.tm.ring 0xE0) (.rrel 25 false) =
      some (25, true, { tstB.tm.ring 0xE0 with take := 1, free := 2 }) ∧ (tstB.tm.ring 0xE0).nslot ≠ 0 ∧ tstB.tm.live = true ∧
      (tstB.tm.ring 0xE0).active = true ∧ tstB.fab = []) := by
  simp only [Group.readyS, Group.readyX, Group.readyP, Group.readyT, Group.openS, Group.openX, Group.openP, Group.openT, Group.fullS, Group.fullV, Group.soundS, Group.soundV, Group.codesPlain, Group.tagged, Group.taggedN, State.objAt, State.noAtoms]; decide +kernel
theorem test_ring_reaches : tstB.reaches .read 1 (BitVec.ofNat 64 (tstB.tm.request 0xA0).src) 0x10100 fetchEntry := by
  simp only [State.reaches]; decide +kernel
/-- A converged group with an F32 tile in handle 1 (16 by 16 at 0x400), another in handle 2, one of 4 by 4 in handle 3, a tile image at
0x40, and banks 1 and 2 of its array its own, bank 2 paired; a front plane of 4 by 4. -/
def tstT : State :=
  { tst with
    g := { tst.g with exec := 0xFFFFFFFF, s := [(16, 0x10100), (20, 0x40)] }
    tm := { tst.tm with
      handles := [(1, { base := 0x400, stride := 64, rowsm1 := 15, colsm1 := 15, tag := 3 }),
        (2, { base := 0x800, stride := 32, rowsm1 := 15, colsm1 := 15, tag := 3 }), (3, { base := 0x300, stride := 64, rowsm1 := 3, colsm1 := 3, tag := 3 })]
      win := winWrite [] 0x40 (bytesOfNat 16 (3 + 0x00403C0F * 2 ^ 32 + 0xC00 * 2 ^ 64)) }
    arrays := [(0, { banks := [(1, { owner := some 2 }), (2, { owner := some 2, paired := true })] })] }
theorem test_meets_Handles :
    (tstT.g.converged ∧ tstT.g.readyS 20 ∧ tstT.objAt (tstT.g.sreg 20) 32 ∧
      let x := tstT.tileImage 0x40
      imageBad x (tstT.g.imageReg x) = false ∧ (∀ r ∈ (handleOfImage x (tstT.g.imageReg x)).ranges, r.1 + r.2 ≤ tstT.tm.w) ∧
      tstT.namesHandle tstT.g.key 5 = false) ∧
    ((tstT.handle 1).tag ≠ 0 ∧ (tstT.handle 2).tag ≠ 0 ∧ tstT.namesHandle tstT.g.key 1 = false ∧ tstT.namesHandle tstT.g.key 2 = false ∧
      tstT.g.term = 0 ∧ tstT.g.openS 9 ∧ boundWrite tstT (.hbndSet 20 2 false) = some (20, 2, boundOfReg 0x40)) := by
  simp only [Group.readyS, Group.readyX, Group.readyP, Group.readyT, Group.openS, Group.openX, Group.openP, Group.openT, Group.fullS, Group.fullV, Group.soundS, Group.soundV, Group.codesPlain, Group.tagged, Group.taggedN, Group.converged, State.objAt]; decide +kernel
theorem test_meets_TileOperations :
    (∃ k, tileRow tstT (.ldw 3) = some ([], [3], true, k)) ∧ tstT.g.rule = none ∧ tstT.g.forced = false ∧ tstT.g.converged ∧
    tstT.tileUsable 3 ∧ tstT.tileUsable 1 ∧ tstT.g.count 3 < 63 ∧ tstT.g.readyS 16 3 ∧ tstT.noAtoms ∧
    tstT.tileBusy tstT.g.key [] (tstT.handle 3).ranges = false ∧
    ∃ p, tstT.rowPieces .read (tagBytes (tstT.handle 3).tag) (tstT.handle 3).rowBytes 1 (tstT.g.tileRows 16 (tstT.handle 3)) = .ok p := by
  refine ⟨⟨_, rfl⟩, ?_⟩
  simp only [Group.readyS, Group.readyX, Group.readyP, Group.readyT, Group.openS, Group.openX, Group.openP, Group.openT, Group.fullS, Group.fullV, Group.soundS, Group.soundV, Group.codesPlain, Group.tagged, Group.taggedN, Group.converged, State.tileUsable, State.noAtoms]
  refine ⟨by decide +kernel, by decide +kernel, by decide +kernel, by decide +kernel, by decide +kernel, by decide +kernel, by decide +kernel,
    by decide +kernel, by decide +kernel, _, rfl⟩
theorem test_meets_Banks : tstT.g.converged ∧ tstT.chainOk false ∧ (∀ a ∈ rangeFrom tstT.myGrove (tstT.chainLen false), tstT.owns a 1 ∧
      tstT.namesBank tstT.g.key a 1 = false) ∧ (∃ b, bankWrite tstT (.bndwr 20 1 false) = some ([20], 1, b)) ∧ tstT.g.readyS 20 := by
  refine ⟨by simp only [Group.converged]; decide +kernel, by simp only [State.chainOk]; decide +kernel, by simp only [State.owns]; decide +kernel, ⟨_, rfl⟩,
    by simp only [Group.readyS, Group.readyX, Group.readyP, Group.readyT, Group.openS, Group.openX, Group.openP, Group.openT, Group.fullS, Group.fullV, Group.soundS, Group.soundV, Group.codesPlain, Group.tagged, Group.taggedN]; decide +kernel⟩
theorem test_meets_WordReads : handleWord tstT (.tinfo 9 0 1) = some (9, 1, 3) ∧ bankWord tstT (.bndrd 9 1) = some (9, 1, 0x7F800000) ∧
    tstT.g.converged ∧ tstT.g.openS 9 ∧ (tstT.handle 1).tag ≠ 0 ∧ tstT.namesHandle tstT.g.key 1 = false ∧ tstT.owns tstT.myGrove 1 ∧
    tstT.namesBank tstT.g.key tstT.myGrove 1 = false ∧ timedCounter 0x21 = false := by
  simp only [Group.readyS, Group.readyX, Group.readyP, Group.readyT, Group.openS, Group.openX, Group.openP, Group.openT, Group.fullS, Group.fullV, Group.soundS, Group.soundV, Group.codesPlain, Group.tagged, Group.taggedN, Group.converged, State.owns]; decide +kernel
theorem test_meets_LogReissue : tstT.g.openS 9 ∧ tstT.owns tstT.myGrove 1 ∧ tstT.owns tstT.myGrove 2 ∧
    tstT.namesBank tstT.g.key tstT.myGrove 1 = false ∧ (tstT.bank tstT.myGrove 2).paired = true ∧
    (tstT.bank tstT.myGrove 1).paired = false ∧ tstT.refusal tstT.myGrove 1 tstT.g.mode = 1 ∧ tstT.refusal tstT.myGrove 1 0x201000 = 0 := by
  simp only [Group.readyS, Group.readyX, Group.readyP, Group.readyT, Group.openS, Group.openX, Group.openP, Group.openT, Group.fullS, Group.fullV, Group.soundS, Group.soundV, Group.codesPlain, Group.tagged, Group.taggedN, State.owns]; decide +kernel
theorem test_meets_ArraySteps : (tstT.g.rule = none ∧ tstT.g.converged ∧ tstT.chainOk false ∧ tstT.g.count 3 < 63 ∧ tstT.tileUsable 1 ∧
      tstT.owns tstT.myGrove 1 ∧ tstT.namesBank tstT.g.key tstT.myGrove 1 = false ∧ (tstT.handle 1).tag ≠ 8) ∧
    (16 * 3 + (tstT.handle 1).lrows ≤ 64 ∧ 16 * 3 + (tstT.handle 1).lcols ≤ 64 ∧ tstT.swapping 1 = false ∧
      tstT.planesBusy = false ∧ tstT.pairFree tstT.myGrove 1 = true ∧ (tstT.bank tstT.myGrove 1).paired = false ∧
      tstT.owns (tstT.myGrove + (tstT.chainLen false - 1)) 1) := by
  simp only [Group.converged, State.chainOk, State.tileUsable, State.owns]; decide +kernel
/-- The same with a front plane of 4 by 4 F32 elements that the group owns. -/
def tstW : State :=
  let a := tstT.array 0
  let p : Plane := { k := 4, n := 4, tag := 3, fmt := 0, elems := [], scales := [], srcH := 3, srcTeam := 3, src := tstT.handle 3, owner := 2, ownerCtx := 1 }
  { tstT with arrays := [(0, { a with planes := [(0, { front := some p })] })] }
theorem test_meets_products : (∀ j, j < tstW.chainLen false → tstW.productCheck false 1 j (tstW.handle 3) .ok 0 3 = .ok) ∧
    (∀ j, j < tstW.chainLen true → tstW.productCheck true 1 j (tstW.handle 3) .ok 0 3 = .ok) ∧ tstW.chainOk true ∧
    tstW.chainShape (tstW.chainLen true) (tstW.handle 3) = .ok := by simp only [State.chainOk]; decide +kernel
theorem test_meets_GraftTable :
    (let s : State := { tst with g := { tst.g with s := [(4, 0x10100), (7, 1)] } }
     (s.g.sreg 7).toNat = 1 ∧ 63 + 1 ≤ 64 ∧ s.g.readyS 4 2 ∧ s.g.readyS 7 ∧ s.noAtoms ∧ s.eccBad 0x10100 128 = false ∧
       s.g.rule = none ∧ s.g.forced = false ∧ imageReason (wordsOf (s.bytesFor (groveOf s.g.core) 0x10100 128)) ≠ 0) ∧
    imageReason (defaultRule 0) = 0 := by
  simp only [Group.readyS, Group.readyX, Group.readyP, Group.readyT, Group.openS, Group.openX, Group.openP, Group.openT, Group.fullS, Group.fullV, Group.soundS, Group.soundV, Group.codesPlain, Group.tagged, Group.taggedN, State.noAtoms]; decide +kernel
theorem test_graft_reaches :
    (let s : State := { tst with g := { tst.g with s := [(4, 0x10100), (7, 1)] } }
     s.reaches .read 128 (s.g.spair 4 + BitVec.ofNat 64 (128 * 0)) 0x10100 fetchEntry) := by rfl
theorem test_meets_TraceAndSampling :
    (let g : Group := { tst.g with trc := { on := true } }
     g.readyS 1 ∧ g.trc.on = true ∧ g.trc.keep = none ∧ g.trc.lost = 0 ∧ g.trc.syncDue = false ∧ g.trc.tnt = [] ∧
       g.trc.block.length ≤ 48 ∧ g.trc.sinceSync < 2 ^ (tst.cx.trccfg.toNat % 16) ∧ (tst.dev.time - g.trc.time).toNat ≤ 255 ∧
       g.trc.block = []) ∧
    (∀ b ∈ (tst.core tst.g.core).stage, b.g ≠ tst.g.key) ∧ tst.g.forced = false ∧
    (let s : State := { tst with cx := { tst.cx with trcring := 8 }, g := { tst.g with trc := { on := true, block := [1] }, s := [(1, 8), (2, 15), (7, 0xC00)] } }
     s.g.trc.block ≠ [] ∧ s.cx.trcring ≠ 0 ∧ 8 ≤ (s.g.sreg 1).toNat ∧ (s.g.sreg 2).toNat < 16 ∧ smpctlLegal (s.g.sreg 7) = true) := by
  simp only [Group.readyS, Group.readyX, Group.readyP, Group.readyT, Group.openS, Group.openX, Group.openP, Group.openT, Group.fullS, Group.fullV, Group.soundS, Group.soundV, Group.codesPlain, Group.tagged, Group.taggedN]; decide +kernel
def tstBlk : TraceBlock := { ctx := 1, g := 2, gid := 0, seq := 0, final := false, stop := false, bytes := [1] }
def tstTag : Tagged :=
  { time := 0, pc := 0, gid := 0, g := 2, ctx := 1, exec := 0, word := 0, code := 0, fate := 0, graft := false, mlvl := 0 }
/-- A core whose slot 0 tags its next instruction, with a tagged one in slot 1 and a staged trace block. -/
def tstC : State :=
  let c : Core := { countdown := [(0, 1)], tagged := [(1, some tstTag)], current := [(0, some 2)], stage := [tstBlk] }
  { tst with cores := [(0, c)], cx := { tst.cx with smpctl := 1 } }
theorem test_meets_samples : tstC.tagDue 0 0 = true ∧ SMap.get none (tstC.core 0).current 0 = some 2 ∧ tstC.group? 2 = some tstC.g ∧
    SMap.get none (tstC.core 0).tagged 1 = some tstTag ∧ (tstC.core 0).stage = [tstBlk] ∧ (tstC.core 0).keepers = [] ∧
    tstC.ctx? tstBlk.ctx = some tstC.cx ∧ tstC.allCtxs = [tstC.cx] ∧ tstC.cx.ens = true ∧ tstC.slotGroups 0 0 1 ≠ [] ∧
    tstC.cx.smpring = 0 ∧ (tst.allCtxs.any fun c => c.ens && !(tst.slotGroups 0 0 c.num).isEmpty) = false := by decide +kernel
/-- A task of a pool whose descriptor lies in the mapped page, its free stack and task blocks in the page of the micro-TLB. -/
def tstS : State :=
  let d : LaunchDef := { kind := 2, descVA := 0x20000, fsBase := 0x10200, tcbBase := 0x11000, cap := 4 }
  { tstP with
    g := { tstP.g with s := [] }, mem := writeNat tstP.mem 0x500014 4 1
    cx := { tstP.cx with units := [{ key := 0, job := 0, phase := 0, graph := 0, idx := 0, def_ := d }] } }
theorem test_meets_GroupsAndTasks :
    (tst.g.live = true ∧ tst.g.st ≠ .ended ∧ tst.g.mon = none ∧ tst.g.count 0 = 0 ∧ tst.g.count 1 = 0 ∧ tst.g.count 3 = 0 ∧
      ({ tst.g with cnt := [(3, [(1, false)])] } : Group).count 3 ≠ 0 ∧
      tst.keysApart ∧ tst.g.readyS 3 ∧ (4 : BitVec 5).toNat < 5 ∧ tst.hwHeld tst.cx.num = false) ∧
    (let u : UnitRec := { key := 0, job := 0, phase := 0, graph := 0, idx := 0, slot := some 0, def_ := {} }
     let s : State := { tst with cx := { tst.cx with units := [u] } }
     s.focused ∧ s.keysApart ∧ s.g.sreg 3 = 0 ∧ s.cx.units.find? (·.slot == some ((0 : Word).extractLsb' 25 7)) = some u ∧
       u.def_.kind = 0 ∧ SMap.get none u.ended 0 = none ∧ s.hwHeld s.cx.num = false ∧ s.teamDone s.tm = false ∧
       (s.allTeams.find? fun t => t.ctx == s.cx.num && t.unit == u.key && t.idx.toNat == 0) = some s.tm) := by
  simp only [Group.readyS, Group.readyX, Group.readyP, Group.readyT, Group.openS, Group.openX, Group.openP, Group.openT, Group.fullS, Group.fullV, Group.soundS, Group.soundV, Group.codesPlain, Group.tagged, Group.taggedN, State.keysApart, State.focused]; decide +kernel
theorem test_meets_tspawn :
    (tstS.g.readyS 3 ∧ tstS.g.openS 4 ∧ tstS.tm.eccBad 0 64 = false ∧ tstS.hwHeld tstS.cx.num = false ∧ tstS.released 3 ∧ tstS.tm.w = 4096 ∧ tst.poolOf = none ∧ (tstS.poolOf.map (·.key)) = some 0 ∧
      tcbMalformed (winNat tstS.tm.win 0 64) = false ∧ tcbMalformed 1 = true ∧ tstS.hwNat tstS.cx 0x20014 4 = some 1 ∧
      tstP.hwNat tstP.cx 0x20014 4 = some 0 ∧ tstS.noAtoms) ∧
    (tstS.spawnAccess 0x10200 .read = .ok (0x10200, fetchEntry) ∧ readNat tstS.mem 0x10200 4 % 2 ^ 20 = 0 ∧
      tstS.spawnAccess 0x11000 .write = .ok (0x11000, fetchEntry) ∧
      inFdt 0x11000 = false ∧ ∀ j, j < 4 → tstS.hwAddr tstS.cx (0x20014 + j) .write = some (0x500014 + j)) := by
  simp only [Group.readyS, Group.readyX, Group.readyP, Group.readyT, Group.openS, Group.openX, Group.openP, Group.openT, Group.fullS, Group.fullV, Group.soundS, Group.soundV, Group.codesPlain, Group.tagged, Group.taggedN, State.noAtoms, State.released]; decide +kernel
/-- Shootdowns of context 1: one not accepted, one sent to groves 0 and the walker 128, one acknowledged but for the walker. -/
def tstH (q : Shoot) : State := { tstP with shoots := [q], g := { tstP.g with inProgress := true } }
theorem test_meets_Shootdowns :
    (tstP.g.priv = true ∧ tstP.g.readyS 12 2 ∧ tstP.g.readyS 3 ∧ tstP.noAtoms ∧ tstP.released 3 ∧
      (tstP.g.spair 12).toNat < 2 ^ 54) ∧
    (let q : Shoot := { ctx := 1, g := some 2, lo := 0, hi := 65536 }
     (tstH q).ctx? 1 = some tstP.cx ∧ (tstH q).shoots.find? (·.ctx == 1) = some q ∧ q.accepted = false) ∧
    (let q : Shoot := { ctx := 1, g := some 2, lo := 0, hi := 65536, accepted := true, toInv := [127], toAck := [0, 127, 128] }
     (tstH q).shoot? 1 = some q ∧ 127 ∈ q.toInv ∧ 0 ∈ q.toAck ∧ 0 ∉ q.toInv ∧ (tstH q).drained 1 = true ∧ q.toAck.erase 0 ≠ []) ∧
    (let q : Shoot := { ctx := 1, g := some 2, lo := 0, hi := 65536, accepted := true, toAck := [128] }
     (tstH q).shoot? 1 = some q ∧ q.toAck.erase 128 = [] ∧ q.g = some (tstH q).g.key ∧ (tstH q).g.live = true ∧
       (tstH q).g.inProgress = true ∧ (tstH q).drained 1 = true ∧ (tstH q).shoots = [q] ∧ 128 ≤ 128) := by
  simp only [Group.readyS, Group.readyX, Group.readyP, Group.readyT, Group.openS, Group.openX, Group.openP, Group.openT, Group.fullS, Group.fullV, Group.soundS, Group.soundV, Group.codesPlain, Group.tagged, Group.taggedN, State.noAtoms, State.released]
  refine ⟨by decide +kernel, by decide +kernel, by decide +kernel, by decide +kernel⟩
theorem test_meets_table_walk :
    (let q : WalkReq := { ctx := 1, va := 0x20000, kinds := [.read], core := 0, micro := [0] }
     let s : State := { tstP with walks := [q] }
     s.walks[0]? = some q ∧ (s.walks.filter fun x => x.die == q.die && x.samePage q) = [q] ∧
       walkTable (s.walkRead q.die s.cx) s.cx 0x20000 = .leaf 0x32010 3 0x50047 ∧ s.ctx? 1 = some s.cx ∧
       SMap.get 0 (s.grove (groveOf 0)).gens 1 = s.cx.gen) ∧ pteHpend 0x50047 = false ∧ pteHown 0x50047 = false ∧ inFdt 0x32010 = false ∧
    checkBits (tlbOfLeaf tstP.cx 0x20000 3 0x50047) 0x20000 0 .read (fun _ _ => 0) =
      .hit 0 (tlbOfLeaf tstP.cx 0x20000 3 0x50047) := by decide +kernel
/-- A submission at the head of the queue of a READY device: a kind, a context and arguments. -/
def tstQ (s : State) (kind ctx a0 a1 a2 : Nat) : State :=
  { s with
    mem := writeNat s.mem Config.hostBase 64 (kind + ctx * 2 ^ 32 + a0 * 2 ^ 256 + a1 * 2 ^ 320 + a2 * 2 ^ 384)
    dev := { s.dev with devstat := 2, sqtail := 1 } }
/-- Its entry. -/
def tstE (kind ctx a0 a1 a2 : Nat) : SqEntry := { kind := kind, priv := false, ctx := ctx, tag := 0, args := [a0, a1, a2, 0], resv := false }
theorem test_meets_Commands :
    (∀ x ∈ [(1, 1), (2, 2), (3, 0), (5, 2), (6, 2), (7, 4), (8, 0), (9, 4)],
      (tstQ tst x.1 1 0 0 0).asks (tstE x.1 1 0 0 0) x.1 x.2) ∧
    (∀ x ∈ [(0, 0), (10, 0)], (tstQ tst x.1 1 0 0 0).sqHead = some (tstE x.1 1 0 0 0)) ∧
    (commandRow .preempt = some (2, 2) ∧ (tstE 2 1 0 9 1).wellFormed 2 = false ∧ (tstE 2 9 0 10 0).wellFormed 2 = true ∧
      (tstQ tst 2 9 0 10 0).ctx? 9 = none) ∧
    ((tstQ tst 2 1 0 9 0).asks (tstE 2 1 0 9 0) 2 2 ∧ (tstQ tst 2 1 0 10 0).asks (tstE 2 1 0 10 0) 2 2 ∧
      (tstQ tst 2 1 0 1000000 0).asks (tstE 2 1 0 1000000 0) 2 2 ∧ (tstQ tst 2 1 0 1000001 0).asks (tstE 2 1 0 1000001 0) 2 2) ∧
    (tstQ { tst with cx := { tst.cx with preempt := .saved } } 3 1 0 0 0).cx.preempt = .saved ∧
    (tstQ tst 1 9 0 0 0).ctx? 9 = none := by
  simp only [State.asks]; decide +kernel
theorem test_meets_frames :
    (let s := tstQ tst 5 1 0x60 1 0
     s.asks (tstE 5 1 0x60 1 0) 5 2 ∧ framesInHbm 0x60 1 = true ∧ s.frameState 0x60 = 0 ∧ s.frameCtx 0x60 = 0 ∧ s.ordinary 0x60 ∧
       s.journalApart ∧ s.ctx? 1 = some tst.cx) ∧
    (let s := tstQ { tst with mem := writeNat [] (fdtAt 0x60 + 10) 2 1 } 6 1 0x60 1 0
     s.asks (tstE 6 1 0x60 1 0) 6 2 ∧ s.frameState 0x60 = 0 ∧ s.frameCtx 0x60 = 1 ∧ s.canShoot 1 = true) ∧
    (let s := tstQ { tst with dies := [(0, { groves := [(0, 0)] })] } 7 2 0x20000 0 0
     s.asks (tstE 7 2 0x20000 0 0) 7 4 ∧ s.ctx? 2 = none ∧ inHbm 0x20000 = true ∧ reachLegal 0 0 = true ∧ s.frameFree 2 = true ∧
       s.partCores { live := true, num := 2, partAll := true } = [0, 1, 2, 3]) ∧ tst.handoverBusy 1 = false := by
  simp only [State.asks, State.ordinary, State.journalApart, apart]; decide +kernel
theorem test_meets_teardown :
    (let s := tstQ tst 8 1 0 0 0
     s.asks (tstE 8 1 0 0 0) 8 0 ∧ s.ctx? 1 = some tst.cx ∧ s.handoverBusy 1 = false ∧ s.skids 1 = false ∧ s.canShoot 1 = true ∧
       s.journalApart ∧ s.tops = [] ∧ s.pend = [] ∧ ∀ p ∈ s.groves, p.2.svcq = []) ∧
    (let s := tstQ tst 9 1 0 0 0
     s.asks (tstE 9 1 0 0 0) 9 4 ∧ s.journalApart ∧ inFdt s.reportPa = false) := by
  simp only [State.asks, State.journalApart, apart]; decide +kernel
theorem test_queue_memory : (tstQ tst 8 1 0 0 0).mem = [(Config.hostBase, 8), (Config.hostBase + 4, 1)] := by decide +kernel
theorem test_no_frames (f : Nat) (h : f < Config.fdtBytes / 16) : (tstQ tst 8 1 0 0 0).frameCtx f = 0 := by
  have h1 : Config.fdtBase + Config.fdtBytes ≤ Config.hostBase := by decide
  have h2 : 16 * f + 16 ≤ Config.fdtBytes := by omega
  have e : ∀ k, (k = 10 ∨ k = 11) → readByte (tstQ tst 8 1 0 0 0).mem (fdtAt f + k) = 0 := by
    intro k hk
    rw [test_queue_memory]; unfold fdtAt; simp only [readByte, SMap.get, memDefault]
    split_ifs <;> first | rfl | omega
  show natOfBytes [readByte _ (fdtAt f + 10), readByte _ (fdtAt f + 11)] = 0
  rw [e 10 (.inl rfl), e 11 (.inr rfl)]
  rfl
theorem test_frames_ordinary (f : Nat) (h : f < Config.fdtBytes / 16) (h1 : (tstQ tst 8 1 0 0 0).frameCtx f = 1) :
    (tstQ tst 8 1 0 0 0).ordinary f := by simp [test_no_frames f h] at h1
/-- Page tables whose level-1 leaf maps VA 0 on frame 0x4000. -/
def tstG1 : State := { tstP with mem := writeNat (writeNat [] 0x20000 8 0x30001) 0x30000 8 0x4000047 }
/-- A job record of one phase and one graph with one launch, in the mapped page. -/
def tstJ : State :=
  let m := writeNat tstG1.mem 0x40020000 24 (1 + 0x20040 * 2 ^ 64 + 2 ^ 128)
  let m := writeNat m 0x40020040 8 0x20080
  tstQ { tstP with mem := writeNat m 0x40020080 16 (1 + 0x20200 * 2 ^ 64) } 1 1 0x20000 0 0
theorem test_meets_job : tstJ.asks (tstE 1 1 0x20000 0 0) 1 1 ∧ tstJ.ctx? 1 = some tstJ.cx ∧ (tstJ.readJob tstJ.cx 0x20000).isSome = true ∧
    tstJ.readJob tstJ.cx 1 = none ∧ tstJ.hwHeld 1 = false := by simp only [State.asks]; decide +kernel
theorem test_meets_DebugCommands :
    (∀ x ∈ [(0x40, [0xF, all64, all64, 0]), (0x41, [0, 0, 0, 0]), (0x42, [0, 0, 0, 0]), (0x43, [1, all32, 0, 0]), (0x44, [1, all32, 0, 0]),
        (0x45, [0, all32, 0, 0]), (0x46, [0x1F, all64 - 3, 0, 0]), (0x47, [0, all64, all64, 0]), (0x48, [3, all32, all64, all64]),
        (0x49, [0x3FFF, all64, all32, 0])],
      (tstQ tst 4 1 x.1 0 0).debugs (tstE 4 1 x.1 0 0) x.1 x.2 tst.cx) ∧
    (tst.keysApart ∧ tst.shoots = [] ∧ tst.cx.cut = none ∧ tst.groupSkids 2 = false ∧ tst.hwHeld 1 = false ∧ tst.cx.debugHalt = false ∧ tst.cx.halt = .lowered ∧ tst.cx.faults = [] ∧ tst.cx.preempt = .none ∧
      tst.cx.saved = none ∧ tst.dev.stepKey = none ∧ (tst.groupOfGid 1 0).map (·.key) = some 2 ∧ (tst.groupOfGid 1 1) = none ∧
      (tst.namedGroups (tstE 4 1 0x43 0 0)).map (·.key) = [2] ∧ tst.namedGroups (tstE 4 1 0x43 32 0) = [] ∧ tst.g.stLeft = .ended ∧
      tst.g.cancelReq = false) ∧
    (let s : State := { tst with cx := { tst.cx with area := some 0x70 } }
     s.cx.area = some 0x70 ∧ inFdt (0x74 * 65536) = false ∧ apart (0x74 * 65536) 256 s.dev.jbase.toNat 0x400000) := by
  simp only [State.debugs, State.asks, State.keysApart, apart]; decide +kernel
/-- The group frozen in READY, and stopped. -/
def tstZ (st : GState) : State := { tst with g := { tst.g with st := st, stLeft := .ready }, cx := { tst.cx with debugHalt := st == .stopped } }
theorem test_meets_DebugStates :
    ((tstZ .frozen).g.st = .frozen ∧ (tstZ .stopped).cx.debugHalt = true ∧ (tstZ .frozen).g.stLeft = .ready ∧
      (tstZ .frozen).g.stands ∧ (tstZ .frozen).g.stepping = false ∧ (tstZ .frozen).group? 2 = some (tstZ .frozen).g) ∧
    (tstZ .frozen).g.wrregOk 0 95 = true ∧ (tstZ .frozen).g.wrregOk 1 63 = true ∧ (tstZ .frozen).g.wrregOk 2 2 = true ∧
    ¬ tst.g.stands := by
  simp only [Group.stands]; decide +kernel
/-- Handover slots: 3 waits to give one page of VA 0x20000 of context 1 to the host, 4 waits behind it. -/
def tstHo : HoSlot := { addr := 0x20000, ctl := 0x0001000080000001, code := 1 }
def tstO : State :=
  { tstP with dev := { tstP.dev with jbase := 0x1000000, ho := [(3, tstHo), (4, { ctl := 0x0001000000000001, code := 1, order := 1 })] } }
/-- The command of slot 3 begun: its leaf RELEASING, its shootdown done or not. -/
def tstO2 (l : List Shoot) : State :=
  { tstO with
    dev := { tstO.dev with ho := [(3, { tstHo with begun := true, leaves := [(0x32010, 3)] })] }
    mem := writeNat tstO.mem 0x32010 8 0x50847, shoots := l }
theorem test_meets_DeviceRegisters :
    ((tstO.hoSlot 3).code = 1 ∧ (tstO.hoSlot 0).code ≠ 1 ∧ tstO.hoTurn 3 = true ∧ tstO.hoTurn 4 = false ∧ tstO.hoTurn 0 = false) ∧
    ((tstO.hoSlot 3).toDevice = false ∧ (tstO.hoSlot 3).begun = false ∧ (tstO.hoSlot 3).pages = 1 ∧ (tstO.hoSlot 3).va < 2 ^ 54 ∧
      (tstO.hoSlot 3).ctx = 1 ∧ tstO.ctx? 1 = some tstO.cx ∧ (tstO.hoSlot 63).pages = 0 ∧ inFdt 0x32010 = false) ∧
    (let s := tstO2 []
     s.hoTurn 3 = true ∧ (s.hoSlot 3).begun = true ∧ (s.hoSlot 3).toDevice = false ∧ (∀ q ∈ s.shoots, q.ho ≠ some 3) ∧
       (s.hoSlot 3).leaves = [(0x32010, 3)] ∧ apart 0x32010 8 s.dev.jbase.toNat 0x400000 ∧
       (∀ f ∈ (s.hoSlot 3).leaves.flatMap fun x => leafFrames x.2 (readD s.mem x.1), s.frameQuiet f = true) ∧
       (s.hoSlot 3).leaves.flatMap (fun x => leafFrames x.2 (readD s.mem x.1)) = [0x50]) ∧
    (let q : Shoot := { ctx := 1, g := none, lo := 0x20000, hi := 0x30000, ho := some 3 }
     ∃ x ∈ (tstO2 [q]).shoots, x.ho = some 3) ∧
    (assigned 0x20000 = true ∧ assigned (12 * Config.stackSlot) = false ∧ (2 ^ 40 < 2 ^ 40 - 7 + 8) ∧ (2 ^ 40 - 8 + 8 ≤ 2 ^ 40)) ∧
    (framesInHbm 0x60 reservedFrames = true ∧ framesInHbm 0xFFFFFFFFF reservedFrames = false) := by
  simp only [apart]; decide +kernel
theorem test_handover_page : tstO.hoPages tstO.cx (tstO.hoSlot 3) 1 0 = .ok [(0x32010, 3, 0x50047)] := by rfl
/-- Frame 0x50 in use, with a transaction waiting for its answer, and the context's job tag 5. -/
def tstF2 : State :=
  let x : FabTxn := { id := 9, owner := 2, write := false, op := 0, pkg := 1, off := 0, tag := 5, size := 4, data := [] }
  { tstP with
    cx := { tstP.cx with jobTag := 5, reach := 0x0FFF0000 }, fab := [x], groves := [(4, {})]
    mem := writeNat (writeNat tstP.mem (fdtAt 0x50) 1 1) (fdtAt 0x50 + 10) 2 1, dies := [(0, { groves := [(0, 0), (1, 33)], bad := [5] })] }
theorem test_meets_PartsThatFail :
    (inHbm (0x50 * 65536) = true ∧ tstF2.frameState 0x50 = 1 ∧ tstF2.frameCtx 0x50 = 1 ∧ tstF2.eccBad (0x50 * 65536) 65536 = false ∧
      (tstF2.popFrame 1 (stackOf 0x50)).map (·.1) = some 0x40 ∧ tstF2.canReplace 0x50 = true ∧
      ({ tstF2 with cx := { tstF2.cx with flHead := [] } } : State).canReplace 0x50 = true ∧
      (({ tstF2 with cx := { tstF2.cx with flHead := [] } } : State).popFrame 1 (stackOf 0x50)).isNone = true ∧
      ({ tstF2 with pend := [{ grove := 0, g := 2, insn := 1, pa := 0x500000, bytes := [1], ctx := 1, vline := 0, cls := 0, home := 0 }] } :
        State).canReplace 0x50 = false ∧
      ({ tstF2 with dev := { tstF2.dev with badWords := [0x500000 / 4] } } : State).eccBad (0x50 * 65536) 65536 = true ∧
      ∀ c ∈ tstF2.allCtxs, ∀ x ∈ tstF2.leavesOf c, leafCovers 0x50 x = true → x.2.1 = 3) ∧
    (SMap.get 34 (tstF2.die 0).groves 1 = 33 ∧ (∀ x ∈ tstF2.allTeams, groveOf x.core ≠ 1) ∧ (tstF2.grove 1).svcq = [] ∧ tstF2.coh = [] ∧
      tstF2.pend = []) := by decide +kernel
theorem test_meets_fabric :
    (tstF2.openTxn 9 = some { id := 9, owner := 2, write := false, op := 0, pkg := 1, off := 0, tag := 5, size := 4, data := [] } ∧
      tstF2.openTxn 8 = none ∧ 1 ≠ tstF2.dev.pkgid.toNat ∧ ∀ x ∈ tstF2.fab, ([1, 2, 3, 4] : List Byte).length = x.answerSize) ∧
    (fabLegal 0 256 = true ∧ fabLegal 1 4 = true ∧ fabLegal 4096 4 = true ∧ fabLegal probeOp 1 = true ∧ tstF2.looped = [] ∧
      tstF2.allCtxs.filter (·.jobTag == 5) = [tstF2.cx] ∧ tstF2.allCtxs.filter (·.jobTag == 6) = [] ∧
      tstF2.inHeld tstF2.cx (runs 0x20000 4) = false ∧ (tstO2 []).inHeld (tstO2 []).cx (runs 0x20000 4) = true ∧
      inFdt 0x500000 = false ∧ inFdt 0x32010 = false ∧ tstF2.eccBad 0x500000 4 = false ∧ tstF2.pend = [] ∧ tstF2.coh = [] ∧
      pteGen 0x50047 = tstF2.cx.gen ∧ pteGen 0x50047 ≠ tstF2.cx.gen + 1 ∧
      ({ tstF2 with dev := { tstF2.dev with badWords := [0x500000 / 4] } } : State).eccBad 0x500000 4 = true) := by decide +kernel
theorem test_fabric_parts :
    tstF2.inParts tstF2.cx .read (runs (BitVec.ofNat 64 (0x20000 % 2 ^ 41)) 4) =
      .ok [{ pa := 0x500000, n := 4, e := tlbOfLeaf tstF2.cx 0x20000 3 0x50047, ea := 0x32010, word := 0x50047 }] ∧
    (∃ e, tstF2.inParts tstF2.cx .read (runs (BitVec.ofNat 64 (0x30000 % 2 ^ 41)) 4) = .error e) := ⟨by rfl, _, by rfl⟩
/-- A launch of one team ready to be placed on the one grove that is enabled. -/
def tstU : UnitRec := { key := 6, job := 5, phase := 0, graph := 0, idx := 0, slot := some 0, def_ := {} }
def tstJob : JobRec := { seq := 5, tag := 0, priv := false, phases := 1, graphPhase := [0], graphDone := [] }
def tstL (u : UnitRec) : State :=
  { State.reset with
    cx := { live := true, num := 1, partAll := true, units := [u], jobs := [tstJob] }, dies := [(0, { groves := [(0, 0)] })], fresh := 10 }
theorem test_placed_choice : (match (tstL tstU).choices 0 with
    | [x] => decide (x.cand.kind = .team 0 ∧ (tstL tstU).bestCore x.cores = some 0 ∧
        ∀ m ∈ x.cores, (tstL tstU).islandNo m = (tstL tstU).islandNo 0) &&
        (let u := ((tstL tstU).placeTeam x.ctx x.unit 0 0 x.cand.groups x.unit.def_.entry x.unit.def_.args none).spend x.unit 0
         let v := if (classEnergy x.unit.eclassNow : Int) ≤ ((tstL tstU).island 0).h then u else u.lowerIsland 0
         decide (v.settle1 1 = none ∧ v.allCtxs.map (fun (c : Ctx) => c.num) = [1]))
    | _ => false) = true := by decide +kernel
/-- A task block that is armed. -/
def tstTcb : Nat := 2 ^ 200 * 2 ^ 141
/-- A pool whose task 1 is armed and waits for nothing. -/
def tstPool : State :=
  let d : LaunchDef := { kind := 2, descVA := 0x20000, fsBase := 0x20200, tcbBase := 0x21000, cap := 1 }
  let c : Ctx := { tstP.cx with units := [{ tstU with def_ := d }], jobs := [tstJob] }
  { tstP with cx := c, mem := writeNat tstG1.mem 0x40021040 64 tstTcb }
theorem test_meets_pool : (match tstPool.cx.units with
    | [u] => decide (tstPool.ctx? 1 = some tstPool.cx) && decide (tstPool.cx.unit? 6 = some u) && tstPool.cx.poolStarts u && u.err == 0 &&
        ((List.range 2).all fun (i : Nat) => tstPool.tcbRead tstPool.cx u i == some (if i = 1 then tstTcb else 0)) && decide (
        tcbStatus tstTcb = 1 ∧ tcbStatus 0 = 0 ∧ bitsN tstTcb 320 16 = 0 ∧ tcbMalformed tstTcb = false ∧
        ((tstPool.modUnit 1 6 fun w => { w with started := true, live := 1 }).tcbStatusWrite tstPool.cx u 1 tstTcb 2).isSome = true)
    | _ => false) = true := by decide +kernel
/-- The team, its one group ended, and its unit of two teams. -/
def tstD : State :=
  let u : UnitRec := { tstU with key := 0, def_ := { teams := 2 } }
  { tst with g := { tst.g with st := .ended, status := some .done }, cx := { tst.cx with units := [u], jobs := [tstJob] } }
theorem test_meets_Placement :
    (tst.teamsOn 0 ≠ [] ∧ tst.teamsOn 1 = [] ∧ State.reset.choices 0 = [] ∧ State.reset.deferrals 0 = [] ∧ (tstL tstU).deferrals 0 = []) ∧
    (tst.team? 3 = some tst.tm ∧ tst.tm.zeroed = false ∧ tst.tm.loadBack = false ∧ tst.waysToDrain tst.tm ≠ 0 ∧
      tst.waysToDrain { tst.tm with w := 0 } = 0 ∧ (∀ g ∈ tst.groups, g.team = 3 → g.trc.on = false) ∧
      tst.teamDone tst.tm = false ∧ tst.team? 4 = none) ∧
    (tstD.teamDone tstD.tm = true ∧ tstD.hwHeld 1 = false ∧ tstD.ctx? 1 = some tstD.cx ∧ (tstD.cx.unit? 0).map (·.def_.kind) = some 0 ∧
      tstD.cx.preempt = .none) ∧
    ((tstD.removeTeam 3).endMember 1 0 0 (tstD.teamStatus 3)).settle1 1 = none := by
  refine ⟨by decide +kernel, by decide +kernel, by decide +kernel, by decide +kernel⟩
/-- The group blocked at a barrier that nobody will reach, found by one walk before. -/
def tstK : State :=
  let w : Wait := .barrier 0x40 2
  { tstB with
    g := { tstB.g with st := .blocked, reason := .barrier, wait := w }
    cx := { tstB.cx with walkSnap := some [(2, w, 2)] } }
theorem test_meets_deadlock : tstK.cx.running = true ∧ tstK.keysApart ∧ tstK.ctx? 1 = some tstK.cx ∧
    tstK.deadlocked 1 = [(2, .barrier 0x40 2, 2)] ∧ tst.deadlocked 1 = [] ∧ tst.cx.walkSnap = none := by
  simp only [State.keysApart]; decide +kernel
theorem test_meets_HaltsAndSaves :
    (tst.focused ∧ tst.atBoundary tst.g = true ∧ (tstZ .stopped).atBoundary (tstZ .stopped).g = false ∧ tst.g.wdcount < tst.g.wdLimit ∧
      tst.g.late = none ∧ tst.g.bounds = [] ∧ ({ tst with g := { tst.g with wdcount := 2 ^ 24 } } : State).g.wdLimit ≤ 2 ^ 24) ∧
    (let r : Raise := { code := .spadBounds }
     let s : State := { tst with g := { tst.g with late := some r } }
     s.focused ∧ s.atBoundary s.g = true ∧ s.g.late = some r) ∧
    (let b : BoundTrap := { pc := 0x10000, bank := 1, reason := 2, rule := none }
     let s : State := { tst with g := { tst.g with bounds := [b] } }
     s.focused ∧ s.atBoundary s.g = true ∧ s.g.late = none ∧ s.g.bounds = [b]) ∧
    (let f : PendFault := { g := 2, raise := { code := .trap }, pc := 0 }
     let s : State := { tst with cx := { tst.cx with halt := .raised, faults := [f] } }
     s.ctx? 1 = some s.cx ∧ s.cx.halt = .raised ∧ s.keysApart ∧ s.skids 1 = false ∧ s.unwatched ∧ s.hwHeld 1 = false ∧
       ({ f with raise := { code := .saveFault } } : PendFault).raise.code = .saveFault ∧ s.policyTerminates s.g = true ∧
       s.group? 2 = some s.g) ∧
    (let s : State := { tst with cx := { tst.cx with cut := some 3 } }
     s.cx.halt = .lowered ∧ s.cx.cut = some 3 ∧ s.skids 1 = false) ∧
    (let x : EngReq := { id := 20, cls := 2, core := 0, g := 2, team := 3, ctx := 1, pc := 0, src := 0, dst := 0, rows := 1, rowlen := 64,
                         sstride := 0, dstride := 0, bar := none, arrive := false, srcsp := true, dstsp := false, idxOff := 0, op := 0, ety := 0
                         off := 0, running := true, byte := 4, acc := 4 }
     ({ tst with engs := [x] } : State).skids 1 = true) := by
  simp only [State.focused, State.keysApart, State.unwatched]; decide +kernel
theorem test_meets_saves :
    (let s : State := { tst with cx := { tst.cx with preempt := .draining 5 10 } }
     s.ctx? 1 = some s.cx ∧ s.keysApart ∧ s.unwatched ∧ s.cx.preempt = .draining 5 10 ∧ s.cx.halt = .lowered) ∧
    (let s : State := { tst with cx := { tst.cx with preempt := .saving 5 10, cut := some 2 } }
     s.cx.isSaving = true ∧ s.cx.cut = some 2 ∧ s.cx.halt = .lowered ∧ s.skids 1 = false ∧ s.cx.calm = false) ∧
    (let s : State := { tst with cx := { tst.cx with preempt := .saving 5 10 } }
     s.cx.isSaving = true ∧ s.cx.calm = true ∧ ¬ s.g.stands ∧ s.groupSkids 2 = false ∧ s.readyToSave 1 = false ∧ s.cx.overdue = false) ∧
    (let s : State := { tstZ .frozen with cx := { tst.cx with preempt := .saving 5 10 } }
     let v := s.markFrames s.cx.savedFrames 0
     s.cx.calm = true ∧ s.cx.overdue = false ∧ s.readyToSave 1 = true ∧ s.handoverBusy 1 = false ∧ s.tops = [] ∧ s.canShoot 1 = true ∧
       s.unwatched ∧ (v.freeRun (v.saveArea s.cx (5, 10)).frames).isSome = true) := by
  simp only [State.keysApart, State.unwatched, Group.stands]; decide +kernel
/-- A write request of grove 0 and a read request of grove 0 for words of one line that grove 1 holds with write permission. -/
def tstReqW : CohReq :=
  { id := 7, grove := 0, line := 0x202, first := 0, n := 4, write := true, cls := 0, pinned := false, ctx := 1, vline := 0x202, g := 2 }
def tstReqR : CohReq := { tstReqW with id := 8, write := false }
def tstFill : FillReq := { core := 0, ctx := 1, line := 0x202 }
/-- The line stands in the L1 set of grove 0 and in its L2 set. -/
def tstX (q : CohReq) : State :=
  { tst with
    coh := [q], groves := [(0, { lru := [{ line := 0x202, way := 0 }] })]
    dies := (List.range 4).map fun d =>
      (d, { dir := [(0x202, some (.precise [{ grove := 1, w := true, mask := 3 }]))]
            l2 := [(homeSet (0x202 * 128), [{ line := 0x202, ctx := 1, vline := 0x202, cls := 0, pinned := false, way := 0 }])] })
    fills := [tstFill] }
def tstPend : PendStore := { grove := 0, g := 2, insn := 1, pa := 0x10104, bytes := [1, 0, 0, 0], ctx := 1, vline := 0x202, cls := 0, home := 0 }
theorem test_meets_Coherence :
    ((tstX tstReqW).cohFirst 0x202 = some tstReqW ∧ (tstX tstReqR).cohMsgs tstReqR = [(1, .recall, 3)] ∧ tst.cohMsgs tstReqR = [] ∧
      (tstX tstReqW).cohMsgs tstReqW = [(1, .inv, 3)] ∧ (tstX tstReqW).overflows tstReqW = false) ∧
    (((tstX tstReqR).l2Set 0x202).any (·.line == 0x202) = true ∧
      ∃ x, ((tstX tstReqR).grove 0).lru.find? (·.line == 0x202) = some x ∧ x.way ∈ (tstX tstReqR).l1WaysFor 0 0x202) ∧
    (let q : CohReq := { tstReqR with taken := true, msgs := [(1, .recall, 3)] }
     (tstX q).cohFirst 0x202 = some q ∧ (1, CohKind.recall, 3) ∈ q.msgs ∧ q.msgs.erase (1, .recall, 3) = []) ∧
    (let q : CohReq := { tstReqW with taken := true, toBcast := true, msgs := [(1, .recall, 3)] }
     (tstX q).cohFirst 0x202 = some q ∧ (1, CohKind.recall, 3) ∈ q.msgs ∧ q.msgs.erase (1, .recall, 3) = [] ∧ q.grove < 128) ∧
    (let q : CohReq := { tstReqW with taken := true }
     (tstX q).coh.find? (fun q => q.g == 2 && q.write && q.taken && q.msgs.isEmpty) = some q ∧ (tstX q).pend = [] ∧
       lineOf tstPend.pa = 0x202 ∧ inFdt tstPend.pa = false ∧ (∀ i, i < 32 → laneBit tstPend.mask i = true → 0 ≤ i ∧ i < 0 + 4) ∧
       (tstX q).group? tstPend.g = some (tstX q).g) ∧
    (tstX tstReqW).fills = [tstFill] := by
  refine ⟨by decide +kernel, ⟨by decide +kernel, _, rfl, by decide +kernel⟩, by decide +kernel, by decide +kernel, by decide +kernel, by decide +kernel⟩
/-- A copy into the window, one out of it, a gather of one row and a copy-reduce, all running; and the grove TLB that they use. -/
def tstEng (i cls : Nat) (src dst : DWord) (sp dp : Bool) : EngReq :=
  { id := i, cls := cls, core := 0, g := 2, team := 3, ctx := 1, pc := 0, src := src, dst := dst, rows := 1, rowlen := 64, sstride := 0
    dstride := 0, bar := none, arrive := false, srcsp := sp, dstsp := dp, idxOff := 0x40, op := 0, ety := 0, off := 0, running := true }
def tstY : State :=
  { tst with
    engs := [tstEng 20 0 0x10100 0x400 false true, tstEng 21 0 0x400 0x10100 true false, tstEng 22 1 0x10100 0x400 false true,
      tstEng 23 2 0x400 0x10100 true false, { tstEng 24 0 0x10100 0x400 false true with running := false }]
    groves := [(0, { gtlb := [fetchEntry] })] }
theorem test_meets_engines :
    tstY.running? 0 0 20 = some (tstEng 20 0 0x10100 0x400 false true) ∧ tstY.running? 0 0 21 = some (tstEng 21 0 0x400 0x10100 true false) ∧
    tstY.running? 0 1 22 = some (tstEng 22 1 0x10100 0x400 false true) ∧ tstY.running? 0 2 23 = some (tstEng 23 2 0x400 0x10100 true false) ∧
    (tstY.engs.find? fun e => e.core == 0 && e.cls == 0 && !e.running && tstY.ctxRuns e.ctx) =
      some { tstEng 24 0 0x10100 0x400 false true with running := false } ∧ tstY.running? 0 0 24 = none ∧
    (tstEng 20 0 0x10100 0x400 false true).chunk = 64 ∧ tstY.pend = [] ∧ tstY.team? 3 = some tstY.tm ∧ tstY.ctx? 1 = some tstY.cx ∧
    tstY.eccBad 0x10100 64 = false ∧ tstY.tm.eccBad 0x400 64 = false ∧ tstY.tm.eccBad 0x40 4 = false ∧ inFdt 0x10100 = false ∧
    (let s := { tstY with tm := { tstY.tm with win := winWrite [] 0x40 (bytesOfNat 8 0x4000000000) } }
     (s.tm.bar 0x40).arrive 0 64 = none ∧ s.tm.eccBad 0x80 16 = false ∧
       ({ phase := 0, exparr := 0, arr := 0, expbytes := 128, bytes := 0 } : Bar).arrive 0 64 =
         some { phase := 0, exparr := 0, arr := 0, expbytes := 128, bytes := 64 }) := by decide +kernel
theorem test_engine_pieces :
    tstY.pieces tstY.cx { agent := 1, core := 0 } .read (runs 0x10100 64) = .ok [.loc 0x10100 64 1 0x202 0 0] ∧
    tstY.pieces tstY.cx { agent := 3, core := 0 } .write (runs 0x10100 4) = .ok [.loc 0x10100 4 1 0x202 0 0] := ⟨by rfl, by rfl⟩
/-- A load subscription and a store subscription on rings of one slot at 0x80 and 0xA0. -/
def tstSub (store : Bool) (ring : Nat) : Sub :=
  { team := 3, handle := if store then 1 else 0, stack := 0, g := 2, pc := 0, ring := ring, store := store, next := 0x10100, step := 128
    rows := 1, rowlen := 128, memStride := 128, slotStride := 128, limited := false, left := 9 }
def tstR : State :=
  let w := winWrite [] 0x80 (bytesOfNat 16 (0x200 + 0x10100 * 2 ^ 32 + 0x100 * 2 ^ 64 + 0x01000080 * 2 ^ 96))
  let w := winWrite w 0xA0 (bytesOfNat 16 (0x300 + 0x10100 * 2 ^ 32 + 0x140 * 2 ^ 64 + 0x000000C1 * 2 ^ 96))
  let w := winWrite w 0x100 (bytesOfNat 12 (128 * 2 ^ 64))
  let w := winWrite w 0x140 (bytesOfNat 12 (128 * 2 ^ 64))
  { tst with tm := { tst.tm with win := w }, subs := [tstSub false 0x80, tstSub true 0xA0], rootTlb := [(0, [fetchEntry])] }
theorem test_meets_roots :
    (tstR.sub? 24 = some (tstSub false 0x80) ∧ tstR.sub? 25 = some (tstSub true 0xA0) ∧ tstR.team? 3 = some tstR.tm ∧
      (∀ b ∈ tstR.subs, tstR.subRuns b = true) ∧ tstR.pend = [] ∧ (tstR.tm.ring 0x80).slotOff = 0x200 ∧
      (tstR.tm.ring 0xA0).slotOff = 0x300 ∧ (tstR.tm.ring 0x80).free = 1 ∧ (tstR.tm.ring 0xA0).free = 0 ∧ (tstR.tm.ring 0xA0).nslot = 1) ∧
    (apart 0x200 128 0x100 16 ∧ apart 0x80 16 0x200 128 ∧ apart 0x80 16 0x100 16 ∧ apart 0x300 128 0x140 16 ∧
      apart 0xA0 16 0x300 128 ∧ apart 0xA0 16 0x140 16) ∧
    (tstR.tm.eccBad 0x100 16 = false ∧ tstR.tm.eccBad 0x140 16 = false ∧ tstR.tm.eccBad 0x300 128 = false ∧ tstR.eccBad 0x10100 128 = false) ∧
    (∀ off ∈ [0x100, 0x140], (tstR.tm.bar off).arrive 0 128 = some { phase := 1, exparr := 0, arr := 0, expbytes := 128, bytes := 0 }) := by
  simp only [apart]; decide +kernel
theorem test_root_pieces :
    tstR.pieces tstR.cx ((tstSub false 0x80).who 0) .read (runs 0x10100 128) = .ok [.loc 0x10100 128 1 0x202 0 0] ∧
    tstR.pieces tstR.cx ((tstSub true 0xA0).who 0) .write (runs 0x10100 128) = .ok [.loc 0x10100 128 1 0x202 0 0] := ⟨by rfl, by rfl⟩
/-- An array with one step, queued or started, of a kind. -/
def tstStep (kind : StepKind) (re : Bool) : ArrayStep :=
  { id := 30, g := 2, team := 3, ctx := 1, pos := 0, pc := 0x10000, bank := 1, chainLen := 1, mode := 0x201000, kind := kind, wantReissue := re }
def tstV (x : ArrayStep) (started : Bool) : State :=
  let p : Plane := { k := 4, n := 4, tag := 3, fmt := 0, elems := [], scales := [], srcH := 3, srcTeam := 3, src := tstT.handle 3, owner := 2, ownerCtx := 1 }
  let u : ArrayUnit := { tstT.array 0 with planes := [(0, { front := some p })] }
  { tstT with arrays := [(0, if started then { u with started := some x } else { u with queue := [x], used := 0, holder := 3 })] }
def tstMma : StepKind := .mma (tstT.handle 3) 3 0 0 3 false 0 false
theorem test_meets_arrays :
    (let s := tstV (tstStep .bclr false) false
     (s.array 0).started = none ∧ s.nextStep 0 ((3 + 1) % 4) = some (tstStep .bclr false) ∧ s.nextStep 0 3 = none ∧
       ∀ p ∈ List.range 4, tst.nextStep 0 p = none) ∧
    (((tstV (tstStep .bclr false) true).array 0).started = some (tstStep .bclr false) ∧ (tstStep .bclr false).chainLen = 1 ∧
      (tstStep .bclr false).off = 0) ∧
    (((tstV (tstStep tstMma false) true).planes 0 0).front.isSome = true ∧ (tstStep tstMma false).wantReissue = false ∧ 16 * 3 + 4 ≤ 64 ∧
      (tstV (tstStep tstMma false) true).team? 3 = some tstT.tm) := by decide +kernel
/-- A started step that waits for its re-issue, begun with one contribution to repeat, and with none. -/
def tstRe (n : Nat) : State :=
  let x : ArrayStep := { tstStep tstMma true with work := some {} }
  let s := tstV x true
  s.modBank 0 1 fun b => { b with log := (List.range n).map fun _ => 
    { hA := 3, aH := tstT.handle 3, aFmt := 0, hBnum := 3, bTeam := 3, bH := tstT.handle 3, bFmt := 0, rb := 0, cb := 3, kLo := 0, k := 4, m := 4, n := 4
      neg := false, sigma := 0, term := 0 } }
theorem test_meets_reissue :
    ((tstStep tstMma true).kind.isLog = false ∧ (tstStep tstMma true).work = none ∧ (tstV (tstStep tstMma true) true).ctxRuns 1 = true ∧
      (tstV (tstStep tstMma true) true).refusal 0 1 0x201000 = 0 ∧ (tstV (tstStep tstMma true) true).refusal 0 1 0x1000 ≠ 0 ∧
      ({ tstV (tstStep tstMma true) true with cx := { tst.cx with halt := .stopped } } : State).ctxRuns 1 = false) ∧
    (((tstRe 1).bank 0 1).log[0]?).isSome = true ∧ ((tstRe 0).bank 0 1).log[0]? = none ∧
    ((tstRe 1).array 0).started = some { tstStep tstMma true with work := some {} } := by decide +kernel
/-- Tile operations of the group in flight. -/
def tstTop (k : TileKind) : State :=
  { tstT with tops := [{ id := 40, g := 2, team := 3, ctx := 1, core := 0, pc := 0, mode := 0x1000, kind := k }] }
theorem test_meets_tiles :
    (let s := tstTop (.ldw (tstT.handle 3) 3 0)
     (s.tops.find? (·.id == 40)).isSome = true ∧ s.ctxRuns 1 = true ∧ s.tops.all (s.tileReady ·) = true ∧ s.team? 3 = some s.tm ∧
       s.tops.all (fun x => !s.tileEcc x && !x.stale) = true) ∧
    (let s := tstTop (.meas (tstT.handle 3) 3 0)
     s.tops.all (s.tileReady ·) = true ∧ (s.tm.handle 3).sameTile (tstT.handle 3) = true) ∧
    (let s := { tstTop (.ldw (tstT.handle 3) 3 0) with cx := { tst.cx with halt := .stopped } }
     s.ctxRuns 1 = false ∧ s.tops.all (fun x => !s.topMid x) = true) := by decide +kernel
theorem test_meets_DecodeEncode : (Instr.nop.encoded = true ∧ Instr.nop.wellFormed = true ∧ encode .nop = some (0x01000000, 0)) ∧
    ((Instr.sli 10 0x00400000).wellFormed = true ∧ encode (.sli 10 0x00400000) = some (0x1B140000, 0x00400000)) ∧
    encode (.ldAcqW 2 102 0 3 false) = some (0x8A059806, 0) ∧ encode (.mma 3 5 1 2 true 7) = some (0xCC1940CF, 0) := by decide
/-- A group that holds a ready one back, and a step of it. -/
def tstHeld : State := { tst with g := { tst.g with held := [7], st := .ready }, others := [{ tst.g with key := 7, st := .ready, slot := 1 }] }
theorem test_meets_HeldInvariant : (tstHeld.groups.all fun g => g.held.all fun k =>
      match tstHeld.group? k with | some h => h.st == .ready | none => false) = true ∧
    (match step tstHeld with | .next t => t.steps == tstHeld.steps + 1 | _ => false) = true := by decide +kernel
theorem test_meets_NothingRefused : (match exec (.hostWindowAccess (12 * Config.stackSlot) false none) tst with
    | .fault (.unassignedPhysical pa) => pa == 12 * Config.stackSlot | _ => false) = true := by decide +kernel
/-- An instruction placed where the reset state fetches. -/
def tstI (w : Nat) : State := State.reset.withFetchWord 32 w
theorem test_meets_StepRunsDecoded :
    (match (tstI 0x01000000).pick with | some (.issue k) => k == (tstI 0x01000000).g.key | _ => false) = true ∧
    (let u := ((tstI 0x01000000).tick.focus (tstI 0x01000000).g.key).claimSlot
     u.cx.breakAt u.g.pc = none ∧ u.g.trc.startDue = false ∧ isRl 0x01000000 = false ∧ roleOf 0x01000000 0 ≠ .entry ∧ u.cx.rules = []) := by
  decide +kernel
theorem test_fetched_word :
    (let u := ((tstI 0x01000000).tick.focus (tstI 0x01000000).g.key).claimSlot
     (match u.fetchAt 0x10000 with | .word w => w == 0x01000000 | _ => false) &&
     (match u.translate u.cx { agent := 5, core := 0, later := true } 0x10000 .exec with | .hit pa e => pa == 0x10000 && e == fetchEntry | _ => false) &&
     (match (u.core 0).iline 1 (lineOf 0x10000) with | some l => l.words == lineWords u.mem (lineOf 0x10000) && !l.bad.getLsbD (0x10000 % 128 / 4) | none => false)) = true := by
  decide +kernel

/-! ### Single steps -/

/-- What holds of the next state, where there is one. -/
def nextHolds (i : Instr) (s : State) (p : State → Bool) : Bool := match exec i s with | .next t => p t | _ => false

/-- The group with scalars and a MODE. -/
def withS (s : List (Nat × Word)) (mode : Word := 0x1000) : State := { tst with g := { tst.g with s := s, mode := mode } }
/-- The group with vector words, all lanes active, and a MODE. -/
def withV (v : List (Nat × Word)) (mode exec : Word) : State := { tst with g := { tst.g with v := v, mode := mode, exec := exec } }

/-- The worked example of 13: a carry from the low word. -/
theorem test_sadd_carry : nextHolds (.sadd 4 4 8 false false) (withS [(4, 0xFFFFFF00), (8, 0x200)]) (fun t =>
    t.g.sreg 4 == 0x100 && t.g.scc && t.g.pc == 0x10004) = true := by decide +kernel
theorem test_saddi : nextHolds (.saddi 5 5 1 false) (withS [(5, 1)]) (fun t => t.g.sreg 5 == 2 && !t.g.scc) = true := by decide +kernel
theorem test_brns_not_taken : nextHolds (.brns 2) { tst with g := { tst.g with scc := true } } (fun t => t.g.pc == 0x10004) = true := by
  decide +kernel
theorem test_brs_back : nextHolds (.brs 0xFFFFF0) { tst with g := { tst.g with scc := true, pc := 0x1040 } } (fun t => t.g.pc == 0x1000) =
    true := by decide +kernel
theorem test_call_links : nextHolds (.call 0x100) tst (fun t => t.g.pc == 0x10400 && t.g.sreg 63 == 0x10004) = true := by decide +kernel
/-- The worked example of 13: %gid of group 0 of team 2 in launch slot 5. -/
theorem test_gid : nextHolds (.rdsr 10 0x000) { tst with g := { tst.g with lslot := 5, teamIdx := 2 } } (fun t => t.g.sreg 10 == 0x0A000040) =
    true := by decide +kernel
/-- The worked example of 14: N8X4 addition with saturation. -/
theorem test_vadd_sat : nextHolds (.vadd 3 4 5 false false) (withV [(128, 0x10FF8001), (160, 0x10018001)] (0x1000 + 5 * 4 + 0x800) 1) (fun t =>
    t.g.lane 3 0 == 0x20FFFF02) = true := by decide +kernel
/-- The worked example of 14: the signed dot product. -/
theorem test_vdot4 : nextHolds (.vdot4 3 4 5 false false false) (withV [(96, 100), (128, 0x80FF0302), (160, 0x7F02FF05)] 0 1) (fun t =>
    t.g.lane 3 0 == 0xFFFFC0E9) = true := by decide +kernel
/-- The worked example of 14: a tree of four f32 values. -/
def tstSum : State := withV [(288, 0x3F800000), (289, 0x4B800000), (290, 0x3F800000), (291, 0xCB800000)] 0x20 0xF
theorem test_vred_tree : nextHolds (.vred 101 9 0 false) tstSum (fun t => t.g.isEmptyS 5 && t.g.rets.any (·.data == [0x3F800000])) = true := by
  decide +kernel
theorem test_vscan : nextHolds (.vscan 8 9 0 false) tstSum (fun t => t.g.isEmptyV 8 &&
    t.g.rets.any (fun (r : Ret) => r.data.take 4 == [0x3F800000, 0x4B800000, 0x4B800000, 0])) = true := by decide +kernel
/-- The worked example of 09: codes of the format 0x00120763 as f32. -/
theorem test_cvtw_codes : nextHolds (.cvtw 3 4 0 3 false)
    { withV [(128, 0x00), (129, 0x80), (130, 0x01), (131, 0x38), (132, 0x29), (133, 0x2A), (134, 0x7E), (135, 0x7F), (136, 0xFF)] 0x20 0x1FF with
      g := { (withV [(128, 0x00), (129, 0x80), (130, 0x01), (131, 0x38), (132, 0x29), (133, 0x2A), (134, 0x7E), (135, 0x7F), (136, 0xFF)] 0x20 0x1FF).g with
        fmts := [(3, 0x00120763)], tags := [(4, 0x13)] } } (fun t => (List.range 9).map (t.g.lane 3) ==
      [0, 0x80000000, 0x3B000000, 0x3F800000, 0x3E900000, 0x3EA00000, 0x43E00000, 0x7FF80000, 0xFFF80000]) = true := by decide +kernel
/-- The worked example of 09: 0.3 to nearest, −0.3 and 0.3 upwards. -/
theorem test_cvtn_rounds :
    let s := fun (x mode : Word) => { withV [(128, x)] mode 1 with g := { (withV [(128, x)] mode 1).g with fmts := [(3, 0x00120763)] } }
    nextHolds (.cvtn 3 4 0 3 false false) (s 0x3E99999A 0x20) (fun t => t.g.lane 3 0 == 0x2A && t.g.tag 3 == 0x13) = true ∧
    nextHolds (.cvtn 3 4 0 3 false false) (s 0xBE99999A (0x20 + 2 * 128)) (fun t => t.g.lane 3 0 == 0xA9) = true ∧
    nextHolds (.cvtn 3 4 0 3 false false) (s 0x43EB0000 0x20) (fun t => t.g.lane 3 0 == 0x7F) = true ∧
    nextHolds (.cvtn 3 4 0 3 false false) (s 0x43EB0000 (0x20 + 0x800)) (fun t => t.g.lane 3 0 == 0x7E) = true ∧
    nextHolds (.cvtn 3 4 0 3 false false) (s 0x43E60000 0x20) (fun t => t.g.lane 3 0 == 0x7E) = true := by decide +kernel
/-- The worked example of 03: lanes 3 and 17 store to one word. -/
theorem test_sts_highest_lane : nextHolds (.stsW 4 99 0 false)
    { withV [(131, 0xAAAAAAAA), (145, 0x55555555)] 0 0x20008 with g := { (withV [(131, 0xAAAAAAAA), (145, 0x55555555)] 0 0x20008).g with
      s := [(3, 0x100)] } } (fun t => winNat t.tm.win 0x100 4 == 0x55555555 && t.g.pc == 0x10004) = true := by decide +kernel
/-- The worked example of 01: a walk, and the leaf stamped with the context's generation. -/
theorem test_walk :
    let m := [(0x2000000008, 0x0000002000010001), (0x2000010048, 0x0000002000020001), (0x2000020288, 0x0000002000021001),
      (0x20000210E8, 0x0007000310005047)].foldl (fun (m : List Host.Cell) (p : Nat × Nat) => writeNat m p.1 8 p.2) []
    (match walkTable (readD m) { gen := 7, base := 0x200000 } 0x000008024A3D1234 with
      | .leaf ea level e => ea == 0x20000210E8 && level == 3 && e == 0x0007000310005047 && pteFrame e == 0x310005 && pteGen e == 7
      | _ => false) = true := by decide +kernel
theorem test_trap_without_handler : nextHolds (.trap 9) tst (fun t => t.g.st == .stopped && t.g.pc == 0x10004 &&
    t.cx.faults.any (fun f => f.raise.code == .trap && f.raise.info == 9)) = true := by decide +kernel
theorem test_trap_with_handler : nextHolds (.trap 9) { tst with g := { tst.g with tr := { thand := 0x20001 } } } (fun t =>
    t.g.pc == 0x20000 && t.g.tr.tep == 0x10004 && t.g.tr.tcause.extractLsb' 0 8 == 0x11 && t.g.exec == 0xFFFFFFFF && t.g.tr.inH &&
      t.g.mode == 0x1020) = true := by decide +kernel
theorem test_rett_outside : nextHolds .rett tst (fun t => t.g.st == .stopped && t.cx.faults.any (·.raise.code == .illegalOp)) = true := by
  decide +kernel
/-- R84, R85: a store to a word that is not granted stands in the slice, where the loads of its grove see it. -/
theorem test_store_load : nextHolds (.sst 1 4 0 false) tst (fun t => readNat t.mem 0x10100 4 == 0 && t.pend.any (·.bytes == [5, 0, 0, 0]) && t.g.count 1 == 1 &&
    nextHolds (.sld 10 4 0 false) t (fun u => u.g.isEmptyS 10 && u.g.rets.any (·.data == [5]))) = true := by decide +kernel
theorem test_barr : nextHolds (.barr 12 20 false) tstB (fun t => t.g.sreg 12 == 2 && (t.tm.bar 0x40).phase == 3) = true := by decide +kernel
theorem test_acq : nextHolds (.acq false 3) tstT (fun t => t.g.scc && (t.bank 0 3).owner == some 2 && (t.bank 0 3).bnd == 0x7F800000) = true := by
  decide +kernel
theorem test_tdef : nextHolds (.tdef 20 5 false) tstT (fun t => (t.handle 5).base == 0xC00 && (t.handle 5).stride == 64 && (t.handle 5).rows == 16 &&
    (t.handle 5).cols == 16 && (t.handle 5).tag == 3 && (t.handle 5).hgen == 1) = true := by decide +kernel
theorem test_rput_slot : nextHolds (.rrel 25 false) tstB (fun t => (t.tm.ring 0xE0).free == 2 && (t.tm.ring 0xE0).take == 1) = true := by
  decide +kernel
theorem test_pgmap : nextHolds (.pgmap 3 12 1) tstP (fun t => t.g.sreg 3 == 0x00010000 && readD t.mem 0x32008 == 0x40003 && t.refcnt 0x40 == 1) =
    true := by decide +kernel
/-- R429: the submission queue's tail moves by no more than the queue's size. -/
theorem test_sqkick : (nextHolds (.sqkick 16) State.reset (fun t => t.dev.sqtail == 16) && nextHolds (.sqkick 17) State.reset (fun t => t.dev.sqtail == 0)) =
    true := by decide +kernel
/-- A word that decode refuses raises ILLEGAL_OP (R125): the group stops, having no handler (R382). -/
theorem test_illegal_word : (match step (tstI 0) with | .next t => t.groups.map (fun (g : Group) => (g.st, g.pc, g.lastCode)) | _ => []) =
    [(GState.stopped, 0x10000, 1)] := by decide +kernel
end

section
/-! PROOFS. The scalar instructions of R282 to R286: each issues its row of the tables, and a row that issues with its registers
ready completes. -/

namespace Sys2Proof.Machine

/-! ### What it is to issue a row -/

/-- What a row of the scalar tables does to a state: its result in s[d], and SCC where the row has a new one. -/
def ScalarRow.effect (r : ScalarRow) (s : State) : State :=
  s.modG fun g => (g.setS r.d.toNat r.x).setScc (r.scc.getD g.scc)

/-- An outcome is the issue of a row: its sources and its destination are the operands checked, under whatever empty-trap bits
and operand codes, and its effect is what follows. -/
def ScalarRow.Issues (r : ScalarRow) (s : State) (out : Host.Outcome State Fault Refusal) : Prop :=
  ∃ l : List Opd, (∀ o ∈ l, ∃ c ∈ r.srcs, ∃ code e, o = sOpd c code e) ∧
    out = s.issueTo (operandCheck s.g l [sOpd r.d 3]) (s.g.pc + BitVec.ofNat 64 (4 * r.words)) r.effect

@[simp] theorem Group.sreg_setS_same (g : Group) (n : Nat) (x : Word) : (g.setS n x).sreg n = x := SMap.get_set_self _ _ _ _

@[simp] theorem ScalarRow.effect_sreg (r : ScalarRow) (s : State) : (r.effect s).g.sreg r.d.toNat = r.x :=
  Group.sreg_setS_same s.g _ _

@[simp] theorem ScalarRow.effect_scc (r : ScalarRow) (s : State) : (r.effect s).g.scc = r.scc.getD s.g.scc := rfl

/-- The effect of a row writes s[d], and SCC only where the row has one. -/
theorem ScalarRow.keeps_effect (r : ScalarRow) (s : State) :
    Keeps { sregs := [r.d.toNat], scc := r.scc.isSome } s (r.effect s) := by
  obtain ⟨d, srcs, x, scc, words⟩ := r
  cases scc with
  | none => exact Keeps.setS x (List.mem_singleton.2 rfl)
  | some b => exact (Keeps.setS x (List.mem_singleton.2 rfl)).trans (Keeps.setScc b rfl)

/-- Scalar operands that are ready pass the checks of issue. -/
theorem scalar_operandCheck_ok {g : Group} {cs : List (BitVec 7)} {d : BitVec 7} {l : List Opd}
    (hl : ∀ o ∈ l, ∃ c ∈ cs, ∃ code e, o = sOpd c code e) (hs : ∀ c ∈ cs, g.readyS c) (hd : g.openS d) :
    operandCheck g l [sOpd d 3] = .ok := by
  have hsrc : ∀ o ∈ l, o.fine g ∧ o.sound g := by
    intro o ho
    obtain ⟨c, hc, code, e, rfl⟩ := hl o ho
    exact ⟨sOpd_fine (hs c hc).1, sOpd_sound (hs c hc)⟩
  refine operandCheck_ok (fun o ho => ?_) (fun o ho => (hsrc o ho).2) rfl
  rcases List.mem_append.1 ho with ho | ho
  · exact (hsrc o ho).1
  · exact List.mem_singleton.1 ho ▸ sOpd_fine hd

/-- An instruction that issues a row whose registers are ready completes with the row's result and SCC. -/
theorem ScalarRow.Issues.completes {r : ScalarRow} {i : Instr} {s : State} (h : r.Issues s (exec i s))
    (hs : ∀ c ∈ r.srcs, s.g.readyS c) (hd : s.g.openS r.d) :
    Completes i s (s.g.pc + BitVec.ofNat 64 (4 * r.words)) { sregs := [r.d.toNat], scc := r.scc.isSome } fun t =>
      t.g.sreg r.d.toNat = r.x ∧ (∀ b, r.scc = some b → t.g.scc = b) := by
  obtain ⟨l, hl, hexec⟩ := h
  refine completes_of (t := r.effect s) (hexec.trans (issueTo_ok (scalar_operandCheck_ok hl hs hd))) rfl rfl
    (r.keeps_effect s) ⟨?_, fun b hb => ?_⟩
  · simpa [retire_g, Group.sreg] using r.effect_sreg s
  · simp [retire_g, hb]

/-! ### The shapes of scalar instructions issue rows -/

/-- The source operand of an instruction of one source. -/
theorem sOpd_single_mem {a : BitVec 7} (ea : Bool) : ∀ o ∈ [sOpd a 1 ea], ∃ c ∈ [a], ∃ code e, o = sOpd c code e := by
  simp only [List.mem_singleton]
  rintro _ rfl
  exact ⟨a, rfl, 1, ea, rfl⟩

/-- The source operands of an instruction of two sources. -/
theorem sOpd_pair_mem {a b : BitVec 7} (ea eb : Bool) :
    ∀ o ∈ [sOpd a 1 ea, sOpd b 2 eb], ∃ c ∈ [a, b], ∃ code e, o = sOpd c code e := by
  simp only [List.mem_cons, List.not_mem_nil, or_false]
  rintro _ (rfl | rfl)
  · exact ⟨a, .inl rfl, 1, ea, rfl⟩
  · exact ⟨b, .inr rfl, 2, eb, rfl⟩

/-- Two sources, SCC left as it is (R283). -/
theorem scalar2_issues {s : State} {d a b : BitVec 7} {ea eb : Bool} (f : Word → Word → Word) {x : Word}
    (hx : f (s.g.sreg a.toNat) (s.g.sreg b.toNat) = x) :
    ScalarRow.Issues { d := d, srcs := [a, b], x := x } s (s.scalar2 d a b ea eb f) :=
  ⟨_, sOpd_pair_mem ea eb, by subst hx; rfl⟩

/-- Two sources, with an SCC of their values (R282). -/
theorem scalar2_issues_scc {s : State} {d a b : BitVec 7} {ea eb : Bool} (f : Word → Word → Word) (scc : Word → Word → Bool)
    {x : Word} (hx : f (s.g.sreg a.toNat) (s.g.sreg b.toNat) = x) :
    ScalarRow.Issues { d := d, srcs := [a, b], x := x, scc := some (scc (s.g.sreg a.toNat) (s.g.sreg b.toNat)) } s
      (s.scalar2 d a b ea eb f fun _ => scc) :=
  ⟨_, sOpd_pair_mem ea eb, by subst hx; rfl⟩

/-- One source, SCC left as it is (R283, R284). -/
theorem scalar1_issues {s : State} {d a : BitVec 7} {ea : Bool} (f : Word → Word) {x : Word} (hx : f (s.g.sreg a.toNat) = x) :
    ScalarRow.Issues { d := d, srcs := [a], x := x } s (s.scalar1 d a ea f) :=
  ⟨_, sOpd_single_mem ea, by subst hx; rfl⟩

/-- One source, with an SCC of its value (R282). -/
theorem scalar1_issues_scc {s : State} {d a : BitVec 7} {ea : Bool} (f : Word → Word) (scc : Word → Bool) {x : Word}
    (hx : f (s.g.sreg a.toNat) = x) :
    ScalarRow.Issues { d := d, srcs := [a], x := x, scc := some (scc (s.g.sreg a.toNat)) } s
      (s.scalar1 d a ea f fun _ => scc) :=
  ⟨_, sOpd_single_mem ea, by subst hx; rfl⟩

/-- A compare (R286). -/
theorem scalarCmp_issues {s : State} {d a b : BitVec 7} {ea eb : Bool} (f : Word → Word → Bool) {c : Bool}
    (hc : f (s.g.sreg a.toNat) (s.g.sreg b.toNat) = c) :
    ScalarRow.Issues { d := d, srcs := [a, b], x := if c then 1 else 0, scc := some c } s (s.scalarCmp d a b ea eb f) :=
  hc ▸ scalar2_issues_scc (fun x y => boolWord (f x y)) f rfl

/-! ### The results of the tables, in the numbers that the sources stand for -/

theorem word_add_eq (x y : Word) : x + y = BitVec.ofNat 32 (x.toNat + y.toNat) := by simp [BitVec.ofNat_add]

theorem word_sub_eq (x y : Word) : x - y = BitVec.ofInt 32 ((x.toNat : Int) - y.toNat) := by
  apply BitVec.eq_of_toNat_eq
  rw [BitVec.toNat_sub, BitVec.toNat_ofInt]
  omega

theorem word_mul_eq (x y : Word) : x * y = BitVec.ofNat 32 (x.toNat * y.toNat) := by simp [BitVec.ofNat_mul]

theorem shiftL_eq (x : Word) (n : Nat) : shiftL x n = if n < 32 then BitVec.ofNat 32 (x.toNat * 2 ^ n) else 0 :=
  apply_ite (BitVec.ofNat 32) _ _ _

theorem shiftR_eq (x : Word) (n : Nat) : shiftR x n = if n < 32 then BitVec.ofNat 32 (x.toNat / 2 ^ n) else 0 :=
  apply_ite (BitVec.ofNat 32) _ _ _

/-! The immediate amounts of R284 are below 32, so the cases for 32 and more fall away. -/

theorem shiftL_imm (x : Word) (n : BitVec 5) : shiftL x n.toNat = BitVec.ofNat 32 (x.toNat * 2 ^ n.toNat) := by
  rw [shiftL_eq, if_pos n.isLt]

theorem shiftR_imm (x : Word) (n : BitVec 5) : shiftR x n.toNat = BitVec.ofNat 32 (x.toNat / 2 ^ n.toNat) := by
  rw [shiftR_eq, if_pos n.isLt]

theorem shiftA_imm (x : Word) (n : BitVec 5) : shiftA x n.toNat = BitVec.ofInt 32 (x.toInt / 2 ^ n.toNat) := by
  rw [shiftA, Nat.min_eq_left (Nat.le_of_lt_succ n.isLt)]

theorem word_minI_eq (x y : Word) : (if x.toInt ≤ y.toInt then x else y) = BitVec.ofInt 32 (min x.toInt y.toInt) := by
  rw [min_def, apply_ite (BitVec.ofInt 32), BitVec.ofInt_toInt, BitVec.ofInt_toInt]

theorem word_maxI_eq (x y : Word) : (if x.toInt ≤ y.toInt then y else x) = BitVec.ofInt 32 (max x.toInt y.toInt) := by
  rw [max_def, apply_ite (BitVec.ofInt 32), BitVec.ofInt_toInt, BitVec.ofInt_toInt]

theorem word_minN_eq (x y : Word) : (if x.toNat ≤ y.toNat then x else y) = BitVec.ofNat 32 (min x.toNat y.toNat) := by
  rw [min_def, apply_ite (BitVec.ofNat 32), BitVec.ofNat_toNat, BitVec.setWidth_eq, BitVec.ofNat_toNat, BitVec.setWidth_eq]

theorem word_maxN_eq (x y : Word) : (if x.toNat ≤ y.toNat then y else x) = BitVec.ofNat 32 (max x.toNat y.toNat) := by
  rw [max_def, apply_ite (BitVec.ofNat 32), BitVec.ofNat_toNat, BitVec.setWidth_eq, BitVec.ofNat_toNat, BitVec.setWidth_eq]

theorem cmpEq_eq (x y : Word) : cmpEq x y = decide (x.toNat = y.toNat) := by
  rw [Bool.eq_iff_iff]; simp [cmpEq, BitVec.toNat_inj]

theorem cmpNe_eq (x y : Word) : cmpNe x y = decide (x.toNat ≠ y.toNat) := by
  rw [Bool.eq_iff_iff]; simp [cmpNe, BitVec.toNat_inj]

/-- The number of 1 bits, counted bit by bit: bit 0, then the bits of the half. -/
theorem popcount_eq_countP (n x : Nat) : popcount n x = (List.range n).countP fun k => x.testBit k := by
  induction n generalizing x with
  | zero => rfl
  | succ n ih =>
    have hhalf : ((fun k => x.testBit k) ∘ Nat.succ) = fun k => (x / 2).testBit k := by
      funext k; simp [Nat.testBit_succ]
    have hbit : (if x.testBit 0 = true then 1 else 0) = x % 2 := by
      rcases Nat.mod_two_eq_zero_or_one x with h | h <;> simp [Nat.testBit_zero, h]
    rw [popcount, ih, List.range_succ_eq_map, List.countP_cons, List.countP_map, hhalf, hbit, Nat.add_comm]

theorem spopc_result_eq (x : Word) :
    BitVec.ofNat 32 (popcount 32 x.toNat) = BitVec.ofNat 32 ((List.range 32).countP fun k => x.getLsbD k) :=
  congrArg (BitVec.ofNat 32) (popcount_eq_countP 32 x.toNat)

/-! ### Every scalar instruction issues its row -/

/-- The instructions that have a row are those of R283 to R286, and each issues its own. -/
theorem exec_issues_scalarRow {s : State} {i : Instr} {r : ScalarRow} (h : scalarRow s.g i = some r) : r.Issues s (exec i s) := by
  cases i with
  | sadd d a b ea eb => cases h; exact scalar2_issues_scc (· + ·) carryOut (word_add_eq _ _)
  | saddi d a imm ea =>
    cases h; exact scalar1_issues_scc (· + imm.signExtend 32) (carryOut · (imm.signExtend 32)) (word_add_eq _ _)
  | ssub d a b ea eb => cases h; exact scalar2_issues_scc (· - ·) borrowOut (word_sub_eq _ _)
  | smul d a b ea eb => cases h; exact scalar2_issues (· * ·) (word_mul_eq _ _)
  | smulhI d a b ea eb => cases h; exact scalar2_issues mulHighI rfl
  | smulhN d a b ea eb => cases h; exact scalar2_issues mulHighN rfl
  | sand d a b ea eb => cases h; exact scalar2_issues (· &&& ·) rfl
  | sor d a b ea eb => cases h; exact scalar2_issues (· ||| ·) rfl
  | sxor d a b ea eb => cases h; exact scalar2_issues (· ^^^ ·) rfl
  | sandn d a b ea eb => cases h; exact scalar2_issues (fun x y => x &&& ~~~y) rfl
  | sshl d a b ea eb => cases h; exact scalar2_issues (fun x y => shiftL x y.toNat) (shiftL_eq _ _)
  | sshr d a b ea eb => cases h; exact scalar2_issues (fun x y => shiftR x y.toNat) (shiftR_eq _ _)
  | ssra d a b ea eb => cases h; exact scalar2_issues (fun x y => shiftA x y.toNat) rfl
  | sshiShl d a n ea => cases h; exact scalar1_issues (shiftL · n.toNat) (shiftL_imm _ _)
  | sshiShr d a n ea => cases h; exact scalar1_issues (shiftR · n.toNat) (shiftR_imm _ _)
  | sshiSra d a n ea => cases h; exact scalar1_issues (shiftA · n.toNat) (shiftA_imm _ _)
  | sshiRor d a n ea => cases h; exact scalar1_issues (rotR · n.toNat) rfl
  | sminI d a b ea eb => cases h; exact scalar2_issues (fun x y => if x.toInt ≤ y.toInt then x else y) (word_minI_eq _ _)
  | smaxI d a b ea eb => cases h; exact scalar2_issues (fun x y => if x.toInt ≤ y.toInt then y else x) (word_maxI_eq _ _)
  | sminN d a b ea eb => cases h; exact scalar2_issues (fun x y => if x.toNat ≤ y.toNat then x else y) (word_minN_eq _ _)
  | smaxN d a b ea eb => cases h; exact scalar2_issues (fun x y => if x.toNat ≤ y.toNat then y else x) (word_maxN_eq _ _)
  | scmpeq d a b ea eb => cases h; exact scalarCmp_issues cmpEq (cmpEq_eq _ _)
  | scmpne d a b ea eb => cases h; exact scalarCmp_issues cmpNe (cmpNe_eq _ _)
  | scmpltI d a b ea eb => cases h; exact scalarCmp_issues cmpLtI rfl
  | scmpleI d a b ea eb => cases h; exact scalarCmp_issues cmpLeI rfl
  | scmpltN d a b ea eb => cases h; exact scalarCmp_issues cmpLtN rfl
  | scmpleN d a b ea eb => cases h; exact scalarCmp_issues cmpLeN rfl
  | ssel d a b ea eb => cases h; exact ⟨_, sOpd_pair_mem ea eb, rfl⟩
  | sli d lit => cases h; exact ⟨[], by simp, rfl⟩
  | smovi d imm => cases h; exact ⟨[], by simp, rfl⟩
  | smov d a ea => cases h; exact scalar1_issues id rfl
  | spopc d a ea => cases h; exact scalar1_issues (fun x => BitVec.ofNat 32 (popcount 32 x.toNat)) (spopc_result_eq _)
  | sclz d a ea => cases h; exact scalar1_issues (fun x => BitVec.ofNat 32 (clz 32 x.toNat)) rfl
  | _ => cases h

/-- Settles O1: each scalar instruction issues the row of its table, and a row whose registers are ready completes. -/
theorem scalarResults : Obligations.ScalarResults := by
  intro s i r hrow hsrcs hd
  exact (exec_issues_scalarRow hrow).completes hsrcs hd

end Sys2Proof.Machine
end

section
/-! PROOFS. Codes delivered as traps or as faults, and the return from a handler (R376, R380 to R382, R392). What the trace, a
journal entry or a stop record writes of the machine is said once, and the two statements are read off the group that is left. -/

namespace Sys2Proof.Machine

/-! ### What the trace writes -/

/-- A state with other books: the trace state of the group, the counters of its context, the stages of cores, and the answers of
other packages. No frame speaks of them. -/
def State.withBooks (s : State) (trc : TraceState) (pmc : SMap DWord) (cores : SMap Core) (fab : List FabTxn) : State :=
  { s with g := { s.g with trc := trc }, cx := { s.cx with pmc := pmc }, cores := cores, fab := fab }

/-- Two states differ in nothing but their books. -/
def State.BooksOnly (s t : State) : Prop := ∃ trc pmc cores fab, t = s.withBooks trc pmc cores fab

theorem State.BooksOnly.refl (s : State) : s.BooksOnly s := ⟨_, _, _, _, rfl⟩

theorem State.BooksOnly.trans {s t u : State} (h : s.BooksOnly t) (k : t.BooksOnly u) : s.BooksOnly u := by
  obtain ⟨_, _, _, _, rfl⟩ := h
  obtain ⟨_, _, _, _, rfl⟩ := k
  exact ⟨_, _, _, _, rfl⟩

theorem modTrc_booksOnly (s : State) (f : TraceState → TraceState) : s.BooksOnly (s.modTrc f) := ⟨_, _, _, _, rfl⟩

theorem State.BooksOnly.modTrc {s t : State} (h : s.BooksOnly t) (f : TraceState → TraceState) : s.BooksOnly (t.modTrc f) :=
  h.trans (modTrc_booksOnly t f)

theorem traceLost_booksOnly (s : State) : s.BooksOnly s.traceLost := ⟨_, _, _, _, rfl⟩

theorem traceDrop_booksOnly (s : State) : s.BooksOnly s.traceDrop := (modTrc_booksOnly s _).trans (traceLost_booksOnly _)

theorem traceComplete_booksOnly (s : State) (final stop : Bool) : s.BooksOnly (s.traceComplete final stop) := by
  unfold State.traceComplete
  split
  · exact (modTrc_booksOnly s _).trans (traceLost_booksOnly _)
  · dsimp only
    split <;> exact ⟨_, _, _, _, rfl⟩

theorem traceRaw_booksOnly (s : State) (bs : List Byte) : s.BooksOnly (s.traceRaw bs) := by
  have hc := traceComplete_booksOnly s false false
  unfold State.traceRaw
  split
  · exact traceDrop_booksOnly s
  · split
    · exact modTrc_booksOnly s _
    · dsimp only
      split
      · exact hc.trans (traceDrop_booksOnly _)
      · exact hc.modTrc _

theorem traceTnt_booksOnly (s : State) : s.BooksOnly s.traceTnt := by
  unfold State.traceTnt
  split
  · exact .refl s
  · exact (traceRaw_booksOnly s _).modTrc _

theorem traceSync_booksOnly (s : State) (reason : Nat) : s.BooksOnly (s.traceSync reason) := (traceRaw_booksOnly s _).modTrc _

theorem traceTimex_booksOnly (n dt : Nat) (s : State) : s.BooksOnly (State.traceTimex n dt s) := by
  induction n generalizing dt s with
  | zero => exact .refl s
  | succ n ih =>
    unfold State.traceTimex
    split
    · exact .refl s
    · exact (traceRaw_booksOnly s _).trans (ih _ _)

theorem traceTimed_booksOnly (s : State) (p : Packet) : s.BooksOnly (s.traceTimed p) := by
  unfold State.traceTimed
  dsimp only
  split
  · exact ((modTrc_booksOnly s _).trans (traceTimex_booksOnly _ _ _)).trans (traceRaw_booksOnly _ _)
  · exact (modTrc_booksOnly s _).trans (traceRaw_booksOnly _ _)

theorem tracePrelude_booksOnly (s : State) : s.BooksOnly s.tracePrelude := by
  have sync5 (t : State) :
      t.BooksOnly (if t.g.trc.syncDue then (t.modTrc fun x => { x with syncDue := false }).traceSync 5 else t) := by
    split
    · exact (modTrc_booksOnly t _).trans (traceSync_booksOnly _ 5)
    · exact .refl t
  unfold State.tracePrelude
  split
  · exact .refl s
  · refine .trans ?_ (sync5 _)
    split
    · exact .refl s
    · exact (((modTrc_booksOnly s _).trans (traceRaw_booksOnly _ _)).trans (traceSync_booksOnly _ 2)).modTrc _

/-- A packet writes the books and nothing else (R408 to R412). -/
theorem emit_booksOnly (s : State) (p : Packet) : s.BooksOnly (s.emit p) := by
  have hpre : s.BooksOnly s.tracePrelude.traceTnt := (tracePrelude_booksOnly s).trans (traceTnt_booksOnly _)
  unfold State.emit
  split
  · exact .refl s
  · cases p with
    | sync r => exact hpre.trans (traceSync_booksOnly _ r)
    | _ =>
      refine hpre.trans ?_
      dsimp only
      split
      · exact (traceSync_booksOnly _ 0).trans (traceTimed_booksOnly _ _)
      · exact traceTimed_booksOnly _ _

/-- So does what a stop does to the trace (R411). -/
theorem traceStop_booksOnly (s : State) : s.BooksOnly s.traceStop := by
  have hblock (t : State) : t.BooksOnly
      (if t.g.trc.keep.isSome then t.modTrc fun x => { x with keep := x.keep.map fun b => { b with stop := true } }
       else if t.g.trc.block.isEmpty then t else t.traceComplete false true) := by
    split
    · exact modTrc_booksOnly t _
    · split
      · exact .refl t
      · exact traceComplete_booksOnly t false true
  unfold State.traceStop
  dsimp only
  split
  · exact ((traceTnt_booksOnly s).trans (hblock _)).modTrc _
  · exact (traceTnt_booksOnly s).trans (hblock _)

theorem clearFab_booksOnly (s : State) : s.clearFab.BooksOnly s := ⟨s.g.trc, s.cx.pmc, s.cores, s.fab, rfl⟩

/-- No place that a frame speaks of is in the books. -/
theorem State.BooksOnly.keeps {s t : State} (h : s.BooksOnly t) (w : Writes) : Keeps w s t := by
  obtain ⟨_, _, _, _, rfl⟩ := h
  exact { Keeps.refl w s with }

/-! ### What a raise records before it is delivered -/

theorem fillTlb_g_cx (s : State) (q : WalkReq) (e : TlbEntry) : (s.fillTlb q e).g = s.g ∧ (s.fillTlb q e).cx = s.cx := by
  unfold State.fillTlb
  split
  · split <;> exact ⟨rfl, rfl⟩
  · dsimp only
    split
    · exact List.foldlRecOn (motive := fun t : State => t.g = s.g ∧ t.cx = s.cx) _ _ ⟨rfl, rfl⟩ fun _ h _ _ => h
    · exact ⟨rfl, rfl⟩

theorem cacheWalk_g_cx (s : State) (r : Raise) : (s.cacheWalk r).g = s.g ∧ (s.cacheWalk r).cx = s.cx := by
  unfold State.cacheWalk
  split
  · exact fillTlb_g_cx s _ _
  · exact ⟨rfl, rfl⟩

/-- A raise records at most the two words of a translation fault (R49). -/
theorem recordXlat_g (s : State) (r : Raise) : ∃ va det, (s.recordXlat r).g = { s.g with xva := va, xdet := det } := by
  have hg := (cacheWalk_g_cx s r).1
  simp only [State.recordXlat]
  split
  · exact ⟨r.va, r.xdet, by rw [State.modG_g, hg]⟩
  · exact ⟨_, _, hg⟩

@[simp] theorem recordXlat_cx (s : State) (r : Raise) : (s.recordXlat r).cx = s.cx := by
  have hcx := (cacheWalk_g_cx s r).2
  simp only [State.recordXlat]
  split <;> exact hcx

@[simp] theorem recordXlat_tr (s : State) (r : Raise) : (s.recordXlat r).g.tr = s.g.tr := by
  obtain ⟨_, _, h⟩ := recordXlat_g s r
  rw [h]

/-! ### Trap entry and fault -/

/-- The handler's PC is `%thand` with its two low bits 0. -/
theorem clear_low_bits_eq (x : DWord) : x &&& ~~~3#64 = x.extractLsb' 2 62 ++ 0#2 := by
  have hlow : ∀ i, (hi : i < 64) → (3#64)[i] = decide (i < 2) := by decide
  ext i hi
  rw [BitVec.getElem_and, BitVec.getElem_not, hlow i hi, BitVec.getElem_append]
  by_cases h : i < 2
  · simp [h]
  · simp [h, Nat.add_sub_of_le (not_lt.1 h), BitVec.getLsbD_eq_getElem hi]

/-- Trap entry leaves what R380 says. -/
theorem trapEntry_entered (s : State) (r : Raise) (pc : DWord) : Entered s (s.trapEntry r pc) r pc := by
  unfold State.trapEntry
  generalize hu : s.modG _ = u
  obtain ⟨_, _, _, _, ht⟩ := emit_booksOnly u (.sync 3)
  rw [ht]
  subst hu
  constructor
  case pc => exact clear_low_bits_eq _
  case lower => exact ⟨rfl, rfl⟩
  all_goals rfl

/-- A fault leaves what R382 says. -/
theorem faultStop_faulted (s : State) (r : Raise) (pc : DWord) (left : GState) : Faulted s (s.faultStop r pc left) r pc := by
  refine ⟨rfl, rfl, rfl, ?_, rfl⟩
  show (if s.cx.halt = .lowered then .raised else s.cx.halt) ≠ .lowered
  split
  · decide
  · assumption

/-- Trap entry reads of the state before it only the group, but for its translation record, and the halt of the context. -/
theorem Entered.of_recorded {s u t : State} {r : Raise} {pc va : DWord} {det : Word} (h : Entered u t r pc)
    (hg : u.g = { s.g with xva := va, xdet := det }) (hcx : u.cx = s.cx) : Entered s t r pc := by
  cases u
  cases hg
  cases hcx
  exact { h with }

/-- A fault reads of the state before it only the group's key, its trap registers and the faults that wait. -/
theorem Faulted.of_before {s u t : State} {r : Raise} {pc : DWord} (h : Faulted u t r pc) (hkey : u.g.key = s.g.key)
    (htr : u.g.tr = s.g.tr) (hfaults : u.cx.faults = s.cx.faults) : Faulted s t r pc :=
  ⟨h.pc, h.stopped, by rw [h.waits, hkey, hfaults], h.line, h.kept.trans htr⟩

/-- The condition of R376 as delivery computes it. -/
theorem taken_iff {s : State} {r : Raise} :
    r.taken s ↔ (r.code.isTrap && s.g.tr.thand.getLsbD 0 && !s.g.tr.tmask) = true := by
  simp [Raise.taken, and_assoc]

theorem deliver_entered {s : State} {r : Raise} (h : r.taken s) (pc : DWord) (left : GState) :
    Entered s (s.deliver r pc left) r pc := by
  obtain ⟨_, _, hg⟩ := recordXlat_g s r
  have hd : s.deliver r pc left = (s.recordXlat r).trapEntry r pc := by
    simp only [State.deliver, recordXlat_tr]
    exact if_pos (taken_iff.1 h)
  rw [hd]
  exact (trapEntry_entered _ r pc).of_recorded hg (recordXlat_cx s r)

theorem deliver_faulted {s : State} {r : Raise} (h : ¬ r.taken s) (pc : DWord) (left : GState) :
    Faulted s (s.deliver r pc left) r pc := by
  obtain ⟨_, _, hg⟩ := recordXlat_g s r
  have hd : s.deliver r pc left = (s.recordXlat r).faultStop r pc left := by
    simp only [State.deliver, recordXlat_tr]
    exact if_neg (mt taken_iff.2 h)
  rw [hd]
  exact (faultStop_faulted _ r pc left).of_before (by rw [hg]) (recordXlat_tr s r) (by rw [recordXlat_cx])

/-- Settles O16: the two branches of delivery, which R376 decides between. -/
theorem trapOrFault : Obligations.TrapOrFault := fun _ _ pc =>
  ⟨fun h => deliver_entered h pc .issuing, fun h => deliver_faulted h pc .issuing⟩

/-! ### A code raised at issue -/

/-- The only register of a context that the end of a replay changes. -/
theorem replayStep_cx (s : State) : s.replayStep.cx = { s.cx with graftCnt := s.replayStep.cx.graftCnt } := by
  unfold State.replayStep
  split
  · split <;> rfl
  · rfl

/-- A code raised at issue outside a graft unit is a fault wherever it may not be a trap. -/
theorem raiseAt_faulted {s : State} {r : Raise} (hrule : s.g.rule = none) (h : ¬ r.taken s) (pc : DWord) :
    Faulted s (s.raiseAt r pc) r pc := by
  have htr : s.replayStep.g.tr = s.g.tr := by rw [replayStep_g]
  have hnot : ¬ r.taken (s.replayStep.modG fun g => { g with lastCode := BitVec.ofNat 8 r.code.num }) := by
    simpa [Raise.taken, htr] using h
  rw [State.raiseAt, hrule]
  exact (deliver_faulted hnot pc .issuing).of_before (by rw [State.modG_g, replayStep_g]) htr
    (by rw [State.modG_cx, replayStep_cx])

/-- ILLEGAL_OP is no trap (R376). -/
theorem illegal_not_taken (s : State) (reason opnd : Nat) : ¬ (illegal reason opnd).taken s := fun h => by
  simpa [illegal, Code.isTrap] using h.1

/-! ### The return restores -/

/-- What `rett` restores of a group (R381). -/
def Group.handlerReturn (g : Group) : Group :=
  { g with
    exec := g.tr.tsexec, cmask := g.tr.tscm, mode := g.tr.tsmode, scc := g.tr.sscc,
    tr := { g.tr with inH := g.tr.sin, tmask := g.tr.smask }, bpSkip := true }

/-- The places that `rett` writes. -/
def rettWrites : Writes := { exec := true, cmask := true, mode := true, scc := true, trap := true }

/-- The return is a retirement at the saved PC and what is restored, but for the SYNC it emits. -/
theorem trapReturn_booksOnly (s : State) : ((s.retire s.g.tr.tep).modG Group.handlerReturn).BooksOnly s.trapReturn :=
  emit_booksOnly _ _

theorem retire_clearFab (s : State) (npc : DWord) : s.clearFab.retire npc = (s.retire npc).clearFab := by
  have hreplay : s.clearFab.replayStep = s.replayStep.clearFab := by
    simp only [State.replayStep, clearFab_g, apply_ite State.clearFab]
    rfl
  rw [State.retire, hreplay]
  rfl

/-- A retirement writes no place that a frame speaks of, with or without the answers of other packages. -/
theorem keeps_retire (w : Writes) (s : State) (npc : DWord) : Keeps w s (s.retire npc) := by
  have k := (Keeps.refl w s).retire npc
  rw [retire_clearFab] at k
  exact k.trans ((clearFab_booksOnly _).keeps w)

theorem keeps_handlerReturn (s : State) : Keeps rettWrites s (s.modG Group.handlerReturn) :=
  { Keeps.refl rettWrites s with scc := nofun, cmask := nofun, exec := nofun, mode := nofun, trap := nofun }

theorem trapReturn_keeps (s : State) : Keeps rettWrites s s.trapReturn :=
  ((keeps_retire _ s _).trans (keeps_handlerReturn _)).trans ((trapReturn_booksOnly s).keeps _)

theorem trapReturn_g (s : State) : ∃ trc, s.trapReturn.g = { (s.retire s.g.tr.tep).g.handlerReturn with trc := trc } := by
  obtain ⟨trc, _, _, _, h⟩ := trapReturn_booksOnly s
  exact ⟨trc, by rw [h]; rfl⟩

theorem trapReturn_issued (s : State) : Issued s s.trapReturn s.g.tr.tep := by
  obtain ⟨_, h⟩ := trapReturn_g s
  constructor
  · rw [h]; rfl
  · rw [h]; simp [Group.handlerReturn, retire_g]
  · intro hended hstopped
    rw [h]; simp [Group.handlerReturn, retire_g, hended, hstopped]

/-- What `rett` makes of a group: what its trap registers saved is restored, and the group lives on as it was. -/
structure Group.Returned (g h : Group) : Prop where
  pc : h.pc = g.tr.tep
  exec : h.exec = g.tr.tsexec
  cmask : h.cmask = g.tr.tscm
  mode : h.mode = g.tr.tsmode
  scc : h.scc = g.tr.sscc
  tr : h.tr = { g.tr with inH := g.tr.sin, tmask := g.tr.smask }
  live : h.live = g.live
  inProgress : h.inProgress = g.inProgress

theorem trapReturn_returned (s : State) : s.g.Returned s.trapReturn.g := by
  obtain ⟨_, h⟩ := trapReturn_g s
  rw [h]
  constructor <;> simp [Group.handlerReturn, retire_g]

/-! ### A group stops -/

/-- A group as a stop leaves it, which CAUSE names (R383 step 3). -/
def Group.stoppedFor (g : Group) (cause : Nat) : Group :=
  { g with st := .stopped, stLeft := g.st, stopCause := cause, stepping := false }

/-- Two groups differ in nothing but their trace state and their monitor, which what a stop writes may touch. -/
def Group.SameCore (g h : Group) : Prop := ∃ trc mon, h = { g with trc := trc, mon := mon }

theorem Group.SameCore.refl (g : Group) : g.SameCore g := ⟨_, _, rfl⟩

theorem Group.SameCore.trans {g h i : Group} (a : g.SameCore h) (b : h.SameCore i) : g.SameCore i := by
  obtain ⟨_, _, rfl⟩ := a
  obtain ⟨_, _, rfl⟩ := b
  exact ⟨_, _, rfl⟩

theorem State.BooksOnly.sameCore {s t : State} (h : s.BooksOnly t) : s.g.SameCore t.g := by
  obtain ⟨_, _, _, _, rfl⟩ := h
  exact ⟨_, _, rfl⟩

theorem monHit_sameCore (g : Group) (pa n : Nat) : g.SameCore (g.monHit pa n) := by
  unfold Group.monHit
  split
  · split
    · exact ⟨_, _, rfl⟩
    · exact .refl g
  · exact .refl g

/-- Bytes stored by the device touch no more of the group than its monitor (R168). -/
theorem storeBytes_sameCore (s : State) (pa : Nat) (bs : List Byte) : s.g.SameCore (s.storeBytes pa bs).g :=
  monHit_sameCore s.g pa bs.length

theorem journal_sameCore (s : State) (e : JEntry) : s.g.SameCore (s.journal e).g := storeBytes_sameCore s _ _

theorem addStop_sameCore (s : State) (ctx : Nat) (r : StopRec) : s.g.SameCore (s.addStop ctx r).g := by
  unfold State.addStop
  split
  · exact .refl s.g
  · dsimp only
    unfold State.ringWrite
    split
    · exact storeBytes_sameCore _ _ _
    · exact .refl s.g

theorem forwardFrom_sameCore (s : State) (ctx : Nat) (seq : Word) : s.g.SameCore (s.forwardFrom ctx seq).g := by
  unfold State.forwardFrom State.forwardStops
  split
  · exact .refl s.g
  · exact List.foldlRecOn (motive := fun t : State => s.g.SameCore t.g) _ _ (.refl s.g) fun t h _ _ =>
      h.trans (journal_sameCore t _)

theorem group?_focused {s : State} (hlive : s.g.live = true) : s.group? s.g.key = some s.g := by
  simp [State.group?, State.groups, hlive]

@[simp] theorem focusTeam_g (s : State) (n : Nat) : (s.focusTeam n).g = s.g := by
  unfold State.focusTeam
  split
  · rfl
  · split <;> rfl

@[simp] theorem focusCtx_g (s : State) (n : Nat) : (s.focusCtx n).g = s.g := by
  unfold State.focusCtx
  split
  · rfl
  · split <;> rfl

/-- The focused group is in focus. -/
theorem focus_focused_g {s : State} {k : Nat} (hlive : s.g.live = true) (hkey : s.g.key = k) : (s.focus k).g = s.g := by
  simp [State.focus, hlive, hkey]

/-- The trace of the focused group stops and it stays in focus. -/
theorem withFocus_traceStop_sameCore {s : State} (hlive : s.g.live = true) :
    s.g.SameCore (s.withFocus s.g.key State.traceStop).g := by
  have hstop : s.g.SameCore (s.focus s.g.key).traceStop.g := by
    have h := (traceStop_booksOnly (s.focus s.g.key)).sameCore
    rwa [focus_focused_g hlive rfl] at h
  simp only [State.withFocus, hlive, if_true]
  obtain ⟨trc, mon, hg⟩ := hstop
  rw [focus_focused_g (by rw [hg]; exact hlive) (by rw [hg])]
  exact ⟨trc, mon, hg⟩

/-- No `tlbinv` of a group between instructions waits to be withdrawn. -/
theorem settleShoot_focused {s : State} (hlive : s.g.live = true) (hidle : s.g.inProgress = false) :
    s.settleShoot s.g.key = s := by
  simp [State.settleShoot, group?_focused hlive, hidle]

/-- A group stands in the three states in which a stop leaves it alone. -/
theorem stands_iff {g : Group} : g.stands ↔ g.st = .ended ∨ g.st = .stopped ∨ g.st = .frozen := by
  unfold Group.stands
  tauto

theorem stopGroup_of_stands {s : State} (hlive : s.g.live = true) (hidle : s.g.inProgress = false) (hst : s.g.stands)
    (cause code : Nat) : s.stopGroup s.g.key cause code = s := by
  simp [State.stopGroup, settleShoot_focused hlive hidle, group?_focused hlive, stands_iff.1 hst]

/-- Any other group in focus is stopped. -/
theorem stopGroup_focused_g {s : State} (hlive : s.g.live = true) (hidle : s.g.inProgress = false) (hst : ¬ s.g.stands)
    (cause code : Nat) : (s.g.stoppedFor cause).SameCore (s.stopGroup s.g.key cause code).g := by
  simp only [State.stopGroup, settleShoot_focused hlive hidle, group?_focused hlive, if_neg (mt stands_iff.2 hst)]
  refine .trans ?_ (addStop_sameCore _ _ _)
  obtain ⟨trc, mon, hg⟩ := withFocus_traceStop_sameCore hlive
  exact ⟨trc, mon, by simp [State.modGroup, State.mapGroups, hg, hlive, Group.stoppedFor]⟩

/-- What a stop leaves of the group in focus: it stands, and keeps its PC, masks, MODE, SCC and trap registers. -/
structure Group.StandsAs (g h : Group) : Prop where
  stands : h.stands
  pc : h.pc = g.pc
  exec : h.exec = g.exec
  cmask : h.cmask = g.cmask
  mode : h.mode = g.mode
  scc : h.scc = g.scc
  tr : h.tr = g.tr

theorem Group.StandsAs.of_sameCore {g h i : Group} (a : g.StandsAs h) (b : h.SameCore i) : g.StandsAs i := by
  obtain ⟨_, _, rfl⟩ := b
  exact { a with }

theorem stopGroup_standsAs {s : State} (hlive : s.g.live = true) (hidle : s.g.inProgress = false) (cause code : Nat) :
    s.g.StandsAs (s.stopGroup s.g.key cause code).g := by
  by_cases hst : s.g.stands
  · rw [stopGroup_of_stands hlive hidle hst]
    exact ⟨hst, rfl, rfl, rfl, rfl, rfl, rfl⟩
  · have hstopped : s.g.StandsAs (s.g.stoppedFor cause) := ⟨.inl rfl, rfl, rfl, rfl, rfl, rfl, rfl⟩
    exact hstopped.of_sameCore (stopGroup_focused_g hlive hidle hst cause code)

/-! ### What `rett` does -/

/-- `rett` in a handler, a legal MODE saved, returns, and then a deferred save request may stop the group. -/
theorem exec_rett_returns {s : State} (hin : s.g.tr.inH = true) (hmode : modeLegal s.g.tr.tsmode = true) :
    exec .rett s = .next s.trapReturn.unmaskStop := by
  show execRett s = _
  simp [execRett, hin, hmode]

/-- `rett` elsewhere raises ILLEGAL_OP at its own PC. -/
theorem exec_rett_raises {s : State} (h : s.g.tr.inH = false ∨ modeLegal s.g.tr.tsmode = false) :
    exec .rett s = .next (s.raiseAt (illegal 5) s.g.pc) := by
  show execRett s = _
  rcases h with h | h <;> simp [execRett, h]

theorem unmaskStop_idle {s : State} (h : s.g.tr.preq = false ∨ s.g.tr.tmask = true) : s.unmaskStop = s := by
  rcases h with h | h <;> simp [State.unmaskStop, h]

/-- A group whose deferred save request is dropped. -/
def Group.dropRequest (g : Group) : Group := { g with tr := { g.tr with preq := false } }

/-- A deferred save request that finds traps unmasked is dropped, and the group stands at that boundary (R392). -/
theorem unmaskStop_standsAs {s : State} (hpreq : s.g.tr.preq = true) (htmask : s.g.tr.tmask = false) (hlive : s.g.live = true)
    (hidle : s.g.inProgress = false) : s.g.dropRequest.StandsAs s.unmaskStop.g := by
  have hrun : s.unmaskStop = ((s.modG Group.dropRequest).stopGroup s.g.key 2 0).forwardFrom s.g.ctx s.cx.stopSeq :=
    if_pos (by simp [hpreq, htmask])
  rw [hrun]
  exact (stopGroup_standsAs (s := s.modG Group.dropRequest) hlive hidle 2 0).of_sameCore (forwardFrom_sameCore _ _ _)

theorem rett_completes {s : State} (hin : s.g.tr.inH = true) (hmode : modeLegal s.g.tr.tsmode = true)
    (hreq : s.g.tr.preq = false ∨ s.g.tr.smask = true) :
    Completes .rett s s.g.tr.tep rettWrites fun t =>
      t.g.exec = s.g.tr.tsexec ∧ t.g.cmask = s.g.tr.tscm ∧ t.g.mode = s.g.tr.tsmode ∧ t.g.scc = s.g.tr.sscc ∧
        t.g.tr = { s.g.tr with inH := s.g.tr.sin, tmask := s.g.tr.smask } := by
  have r := trapReturn_returned s
  have hexec : exec .rett s = .next s.trapReturn := by
    rw [exec_rett_returns hin hmode, unmaskStop_idle (r.tr ▸ hreq)]
  exact ⟨_, hexec, trapReturn_issued s, trapReturn_keeps s, r.exec, r.cmask, r.mode, r.scc, r.tr⟩

theorem rett_stands {s : State} (hin : s.g.tr.inH = true) (hmode : modeLegal s.g.tr.tsmode = true) (hpreq : s.g.tr.preq = true)
    (hsmask : s.g.tr.smask = false) (hlive : s.g.live = true) (hidle : s.g.inProgress = false) :
    Gives .rett s fun t => t.g.pc = s.g.tr.tep ∧ t.g.exec = s.g.tr.tsexec ∧ t.g.cmask = s.g.tr.tscm ∧ t.g.mode = s.g.tr.tsmode ∧
      t.g.scc = s.g.tr.sscc ∧ t.g.tr = { s.g.tr with inH := s.g.tr.sin, tmask := false, preq := false } ∧ t.g.stands := by
  have r := trapReturn_returned s
  have h := unmaskStop_standsAs (r.tr ▸ hpreq) (r.tr ▸ hsmask) (r.live.trans hlive) (r.inProgress.trans hidle)
  have htr : s.trapReturn.g.dropRequest.tr = { s.g.tr with inH := s.g.tr.sin, tmask := false, preq := false } := by
    simp [Group.dropRequest, r.tr, hsmask]
  exact ⟨_, exec_rett_returns hin hmode, h.pc.trans r.pc, h.exec.trans r.exec, h.cmask.trans r.cmask, h.mode.trans r.mode,
    h.scc.trans r.scc, h.tr.trans htr, h.stands⟩

/-- Settles O18: `rett` completes, or completes and stands, or is a fault; the last clause is trap entry in any state. -/
theorem trapReturn : Obligations.TrapReturn :=
  ⟨fun _ => rett_completes, fun _ => rett_stands,
    fun s hrule h => ⟨_, illegal 5, exec_rett_raises h, rfl, raiseAt_faulted hrule (illegal_not_taken s 5 0) s.g.pc⟩,
    fun _ _ pc _ h => deliver_entered h pc .issuing⟩

end Sys2Proof.Machine
end
